-- ==== Sys2Proof/Word.lean ====
section
/-! DEFINITION. The two widths of the block: bytes and 16-bit words (00_scope.md R6, R7, 20_memory.md R68). -/

namespace Sys2Proof

/-- `BYTE_WIDTH` = 8 (R6). -/
abbrev Byte := BitVec 8

/-- `WORD_WIDTH` = 16 (R6): field values, quantities, register values and the CRC. -/
abbrev Word := BitVec 16

/-- A byte sequence, index 0 the first byte on the wire (R8). -/
abbrev Bytes := List Byte

end Sys2Proof
end

