-- ==== Sys2Proof/Config.lean ====
section
/-! DEFINITION. The parameters a model takes as configuration (00_scope.md R6). The values this model fixes stand in
`Sys2Proof/Machine/Params.lean`. -/

namespace Sys2Proof

/-- `CRC_BYTE_ORDER` (R6, R63, D4): which CRC byte goes out first. -/
inductive CrcByteOrder where
  | lowFirst
  | highFirst
  deriving DecidableEq, Repr

/-- The parameters of R6 that a rule computes with. -/
structure Config where
  /-- `CRC_POLY`, reflected. -/
  crcPoly : Word
  /-- `CRC_INIT`, the initial CRC register. -/
  crcInit : Word
  /-- `CRC_BYTE_ORDER` of the frame trailer. -/
  crcByteOrder : CrcByteOrder
  deriving DecidableEq, Repr

end Sys2Proof
end

