-- ==== Sys2Proof/Syntax.lean ====
section
/-! DEFINITION. The command port's record (10_state.md R31), the descriptor's shape (R34, 30_encoding.md R83), and the
instructions: one constructor for each row of spec/opcode_table.json. -/

namespace Sys2Proof

/-- The command record of R31, `OP` (R80) and every operand field.
An omitted integer is 0, an omitted list is empty, an omitted `LEN_OVR` is absent (R92).
DESIGN CHOICE (log entry 20): `LEN_OVR` is a natural number, as R31, R32, R92 and R152 type it. I18 of
93_implementation_defined.md also lists negative overrides as passed through, which this port cannot express. -/
structure Command where
  op     : BitVec 3
  data   : Bytes := []
  slave  : Int := 0
  fc     : Int := 0
  start  : Int := 0
  qty    : Int := 0
  value  : Int := 0
  values : List Int := []
  waddr  : Int := 0
  lenOvr : Option Nat := none
  deriving DecidableEq, Repr

/-- What the host may do to the block (R320): issue a command, or reset it between commands (R311). -/
inductive HostAction where
  | command (c : Command)
  | reset
  deriving DecidableEq, Repr

/-- The operands ENCODE reads besides FC (R80, R150). -/
structure EncodeOperands where
  start  : Int := 0
  qty    : Int := 0
  value  : Int := 0
  values : List Int := []
  waddr  : Int := 0
  lenOvr : Option Nat := none
  deriving DecidableEq, Repr

/-- The six families of R83 (90_conflicts.md C1). -/
inductive Family where
  | readBits
  | readWords
  | writeEcho
  | statusByte
  | diag
  | readWriteWords
  deriving DecidableEq, Repr

/-- The eight request layouts of R84. -/
inductive RequestLayout where
  | reqRead
  | reqWsc
  | reqWsr
  | reqFcOnly
  | reqDiag
  | reqWmc
  | reqWmr
  | reqRwmr
  deriving DecidableEq, Repr

/-- The five normal response layouts of R85. -/
inductive ResponseLayout where
  | rspBits
  | rspWords
  | rspEcho
  | rspStatus
  | rspDiag
  deriving DecidableEq, Repr

/-- One entry of the function descriptor table (R34). The expected-length formula is the family's (R152), and the
source's read flag is a view of the family (`Family.readFlag`). -/
structure Descriptor where
  fc             : Byte
  mnemonic       : String
  family         : Family
  requestLayout  : RequestLayout
  responseLayout : ResponseLayout
  deriving DecidableEq, Repr

/-- The instructions, one constructor for each row of spec/opcode_table.json.

The `…Req` rows are `ENCODE fc=<function>` (41_codec_encode.md R154 to R164) with the operands R88 says that function
reads; the `…Rsp` rows are `DECODE fc=<function>` (42_codec_decode.md R205 to R215), `data` being the whole response
PDU; `exceptionRsp` is a DECODE of a PDU whose first byte has bit 7 set (R86, R202). The last eight are the commands of
R80 with any operands. -/
inductive Instr where
  | readCoilsReq (start qty : Int) (lenOvr : Option Nat)
  | readDiscreteInputsReq (start qty : Int) (lenOvr : Option Nat)
  | readHoldingRegistersReq (start qty : Int) (lenOvr : Option Nat)
  | readInputRegistersReq (start qty : Int) (lenOvr : Option Nat)
  | writeSingleCoilReq (start value : Int) (lenOvr : Option Nat)
  | writeSingleRegisterReq (start value : Int) (lenOvr : Option Nat)
  | readExceptionStatusReq (lenOvr : Option Nat)
  | diagnosticReq (start : Int) (values : List Int) (lenOvr : Option Nat)
  | writeMultipleCoilsReq (start qty : Int) (values : List Int) (lenOvr : Option Nat)
  | writeMultipleRegistersReq (start qty : Int) (values : List Int) (lenOvr : Option Nat)
  | readWriteMultipleRegistersReq (start qty waddr : Int) (values : List Int) (lenOvr : Option Nat)
  | readCoilsRsp (qty : Int) (data : Bytes)
  | readDiscreteInputsRsp (qty : Int) (data : Bytes)
  | readHoldingRegistersRsp (qty : Int) (data : Bytes)
  | readInputRegistersRsp (qty : Int) (data : Bytes)
  | writeSingleCoilRsp (data : Bytes)
  | writeSingleRegisterRsp (data : Bytes)
  | readExceptionStatusRsp (data : Bytes)
  | diagnosticRsp (data : Bytes)
  | writeMultipleCoilsRsp (data : Bytes)
  | writeMultipleRegistersRsp (data : Bytes)
  | readWriteMultipleRegistersRsp (qty : Int) (data : Bytes)
  /-- DATA is a byte with bit 7 set and low bits `low`, then `rest`. -/
  | exceptionRsp (fc qty : Int) (low : BitVec 7) (rest : Bytes)
  | crc16 (data : Bytes)
  | encode (fc : Int) (ops : EncodeOperands)
  | decode (fc qty : Int) (data : Bytes)
  | buildRequest (data : Bytes) (slave : Int)
  | parseResponse (data : Bytes)
  | parseRequest (data : Bytes)
  | buildResponse (data : Bytes)
  | reservedOp7
  deriving DecidableEq, Repr

end Sys2Proof
end

