-- ==== Sys2Proof/Machine/State.lean ====
section
/-! DEFINITION. The machine's state (10_state.md R40), the response port (R32), the error kinds and detail codes
(60_exceptions.md R281, R282), and the reasons a step can stop. -/

namespace Sys2Proof.Machine

/-- STATUS (R32, R281). Its numbers are `Status.code` (Machine/Flags.lean). -/
inductive Status where
  | ok
  | unsupportedFunction
  | invalidArgument
  | invalidRequestFrame
  | invalidResponseFrame
  | slaveException
  deriving DecidableEq, Repr

/-- DETAIL (R282). Its numbers are `Detail.code` (Machine/Flags.lean). -/
inductive Detail where
  | none
  | addrRange
  | fieldRange
  | valueRange
  | byteCountRange
  | dataByteRange
  | noRequest
  | tooShort
  | addrMismatch
  | crcMismatch
  | byteCountMismatch
  | layoutMismatch
  | emptyPdu
  deriving DecidableEq, Repr

/-- What a command's pseudocode raises: the source's closed list of error kinds with what each carries (R280, R281). -/
inductive Error where
  | unsupportedFunction
  | invalidArgument (detail : Detail)
  | invalidRequestFrame (detail : Detail)
  | invalidResponseFrame (detail : Detail)
  | slaveException (code : Byte)
  deriving DecidableEq, Repr

/-- The response port (R32): the outcome of the last completed command. A result field that the command's rule does not
return is absent (D45), which `none` says; it is the spec's own absence, not a missing reset value. -/
structure Response where
  status    : Status := .ok
  detail    : Detail := .none
  excCode   : Byte := 0
  crc       : Option Word := Option.none
  pdu       : Option Bytes := Option.none
  expLen    : Option Nat := Option.none
  ctx       : Option (Byte × Word) := Option.none
  frame     : Option Bytes := Option.none
  addr      : Option Byte := Option.none
  valuesOut : Option (List Nat) := Option.none
  deriving DecidableEq, Repr

/-- One instance of the block (R40). The descriptor table is a constant (`descriptorTable`, R34; log entry 10) and the CRC
working register is no state between commands (R35). -/
structure State where
  /-- `LAST_ADDR` (R33): the address byte of the most recent request built or parsed. -/
  lastAddr  : Byte
  /-- `LAST_VALID` (R33): `lastAddr` holds an address. -/
  lastValid : Bool
  /-- The response port (R32, R37). -/
  response  : Response
  /-- The command index (R36): how many commands have completed since reset. -/
  index     : Nat
  /-- The command port's side of the host (R31, R320): what the host does next, first action first.
  The model's own field (log entry 1). -/
  port      : List HostAction
  deriving DecidableEq, Repr

/-- Why the machine stops with a fault. The block itself has none (every error is an outcome, R280). -/
inductive Fault where
  /-- Raised by `step` when the host has issued nothing more: the run has ended (R321). Safe: no next state is claimed. -/
  | endOfRun
  deriving DecidableEq, Repr

/-- Why a command has no meaning (R286). -/
inductive Refusal where
  /-- Raised by `exec` for an instruction without a meaning yet; no arm does. Safe: no next state is claimed. -/
  | notModelled (mnemonic : String)
  /-- RESERVED_OP (R286): raised by a command with OP = 7. Safe: the spec gives the command no outcome. -/
  | reservedOp
  /-- PRECONDITION (R153, R286): raised by ENCODE of the two multiple-write functions when VALUES breaks the caller's
  precondition. Safe: the spec gives the command no outcome. -/
  | precondition
  deriving DecidableEq, Repr

/-- The state after reset (70_reset_and_hazards.md R310): LAST_VALID 0 and command index 0 are the spec's values.
LAST_ADDR = 0 and the response port's contents are DESIGN CHOICES (log entry 2): the spec leaves both open and no command
reads them. The port lists nothing: the host has issued nothing (log entry 1). -/
def State.reset : State :=
  { lastAddr := 0, lastValid := false, response := {}, index := 0, port := [] }

end Sys2Proof.Machine
end

