-- ==== Sys2Proof/Machine/Operands.lean ====
section
/-! DEFINITION. How fields are assembled and read: the assemblers of 30_encoding.md R87, the byte and bit orders of
20_memory.md R62 to R64, and the buffer reads of R61 and 00_scope.md R8 to R10. -/

namespace Sys2Proof.Machine

/-- `ceil8(n)` (R9). -/
def ceil8 (n : Nat) : Nat := (n + 7) / 8

/-- `MemRead(B, i, n)`: the bytes `B[i..i+n)` (R10, R61). -/
def memRead (b : Bytes) (i n : Nat) : Bytes := (b.drop i).take n

/-- The byte `x[i]`; used only below the length (R8, R61). -/
def byteAt (x : Bytes) (i : Nat) : Byte := x.getD i 0

/-- `be16(w)`: most significant byte first (R9, R62). -/
def be16 (w : Word) : Bytes := [w.extractLsb' 8 8, w.extractLsb' 0 8]

/-- `rd16(x, i)`: a big-endian, unsigned word (R9, R62). -/
def rd16 (x : Bytes) (i : Nat) : Nat := (byteAt x i).toNat * 256 + (byteAt x (i + 1)).toNat

/-- FIELD16 (R87). -/
def field16 (v : Int) : Except Error Bytes :=
  if 0 ≤ v ∧ v ≤ 65535 then .ok (be16 (BitVec.ofInt 16 v)) else .error (.invalidArgument .fieldRange)

/-- VAL16 (R87): a negative value goes out as 16-bit two's complement (D16). -/
def val16 (v : Int) : Except Error Bytes :=
  if -32768 ≤ v ∧ v ≤ 65535 then .ok (be16 (BitVec.ofInt 16 (v % 65536))) else .error (.invalidArgument .valueRange)

/-- COIL16 (R87): never raises. -/
def coil16 (v : Int) : Bytes :=
  if v = 0 then be16 0x0000#16 else be16 0xFF00#16

/-- BYTE8 (R87). -/
def byte8 (v : Int) : Except Error Bytes :=
  if 0 ≤ v ∧ v ≤ 255 then .ok [BitVec.ofInt 8 v] else .error (.invalidArgument .dataByteRange)

/-- BC8 (R87). -/
def bc8 (n : Nat) : Except Error Bytes :=
  if n ≤ 255 then .ok [BitVec.ofNat 8 n] else .error (.invalidArgument .byteCountRange)

/-- ADDR8 (R87). -/
def addr8 (a : Int) : Except Error Byte :=
  if 0 ≤ a ∧ a ≤ 255 then .ok (BitVec.ofInt 8 a) else .error (.invalidArgument .addrRange)

/-- One assembler over a list, in index order; the first element that does not fit raises (R161, R163, R164). -/
def assembleEach (field : Int → Except Error Bytes) : List Int → Except Error Bytes
  | [] => .ok []
  | v :: vs => do
    let x ← field v
    let xs ← assembleEach field vs
    return x ++ xs

/-- Data byte `j` of PACK: coil `8j + m` in bit `m`, 0 past the last coil (R64, R87). -/
def packByte (bits : List Int) (j : Nat) : Byte :=
  (List.range 8).foldl (fun d m => if bits.getD (8 * j + m) 0 = 0 then d else d ||| (1#8 <<< m)) 0#8

/-- PACK (R87): `ceil8(k)` bytes, LSB first, pad bits 0. -/
def packBits (bits : List Int) : Bytes := (List.range (ceil8 bits.length)).map (packByte bits)

/-- `(d[i div 8] >> (i mod 8)) & 1` (R64, R87). -/
def bitAt (d : Bytes) (i : Nat) : Nat := ((byteAt d (i / 8) >>> (i % 8)) &&& 1#8).toNat

/-- The first `q` bits of packed data; the pad bits are discarded (R64, R205). -/
def unpackBits (q : Nat) (d : Bytes) : List Nat := (List.range q).map (bitAt d)

/-- The first `q` big-endian words of the data (R207). -/
def unpackWords (q : Nat) (d : Bytes) : List Nat := (List.range q).map fun i => rd16 d (2 * i)

end Sys2Proof.Machine
end

