-- ==== Sys2Proof/Machine/Descriptors.lean ====
section
/-! DEFINITION. The function descriptor table (10_state.md R34, 30_encoding.md R83): eleven constant, read-only entries,
the same in every instance. The function-code values other than 0x03 are the spec's decision D3. -/

namespace Sys2Proof

/-- The source's read flag: 1 where the response carries a byte count (R34, C1). -/
def Family.readFlag : Family → Bool
  | .readBits => true
  | .readWords => true
  | .writeEcho => false
  | .statusByte => false
  | .diag => false
  | .readWriteWords => true

namespace Machine

def readCoils : Descriptor := ⟨0x01, "READ_COILS", .readBits, .reqRead, .rspBits⟩

def readDiscreteInputs : Descriptor := ⟨0x02, "READ_DISCRETE_INPUTS", .readBits, .reqRead, .rspBits⟩

def readHoldingRegisters : Descriptor := ⟨0x03, "READ_HOLDING_REGISTERS", .readWords, .reqRead, .rspWords⟩

def readInputRegisters : Descriptor := ⟨0x04, "READ_INPUT_REGISTERS", .readWords, .reqRead, .rspWords⟩

def writeSingleCoil : Descriptor := ⟨0x05, "WRITE_SINGLE_COIL", .writeEcho, .reqWsc, .rspEcho⟩

def writeSingleRegister : Descriptor := ⟨0x06, "WRITE_SINGLE_REGISTER", .writeEcho, .reqWsr, .rspEcho⟩

def readExceptionStatus : Descriptor := ⟨0x07, "READ_EXCEPTION_STATUS", .statusByte, .reqFcOnly, .rspStatus⟩

def diagnostic : Descriptor := ⟨0x08, "DIAGNOSTIC", .diag, .reqDiag, .rspDiag⟩

def writeMultipleCoils : Descriptor := ⟨0x0F, "WRITE_MULTIPLE_COILS", .writeEcho, .reqWmc, .rspEcho⟩

def writeMultipleRegisters : Descriptor := ⟨0x10, "WRITE_MULTIPLE_REGISTERS", .writeEcho, .reqWmr, .rspEcho⟩

def readWriteMultipleRegisters : Descriptor :=
  ⟨0x17, "READ_WRITE_MULTIPLE_REGISTERS", .readWriteWords, .reqRwmr, .rspWords⟩

/-- The eleven descriptors of R83, in its order. -/
def descriptorTable : List Descriptor :=
  [readCoils, readDiscreteInputs, readHoldingRegisters, readInputRegisters, writeSingleCoil, writeSingleRegister,
   readExceptionStatus, diagnostic, writeMultipleCoils, writeMultipleRegisters, readWriteMultipleRegisters]

/-- `lookup(FC)` (41_codec_encode.md R151): the descriptor whose function-code byte equals FC, if there is one. -/
def lookup (fc : Int) : Option Descriptor :=
  descriptorTable.find? fun d => (d.fc.toNat : Int) == fc

/-- Byte 0 of a response PDU has bit 7 set: an exception response, whatever its low 7 bits are (R86, R90). -/
def isException : Bytes → Bool
  | [] => false
  | b :: _ => b.getLsbD 7

/-- The first byte of an exception response: `low` OR 0x80 (R86). -/
def exceptionByte (low : BitVec 7) : Byte := low.zeroExtend 8 ||| 0x80#8

end Machine

end Sys2Proof
end

