-- ==== Sys2Proof/WellFormed.lean ====
section
/-! DEFINITION. Which instructions are the ONE spelling of a command record (`wellFormed`), and which request
instructions are the ONE reading of a request PDU's bytes (`wireWellFormed`). Neither limits what runs: `exec` gives every
instruction its meaning. Log entries 3 and 4. -/

namespace Sys2Proof

/-- The command record's own spelling (log entry 3): ENCODE and DECODE with a listed function code are spelled as that
function's row, a DECODE of an exception PDU as the EXCEPTION row. -/
def wellFormed : Instr → Bool
  | .readCoilsReq _ _ _ => true
  | .readDiscreteInputsReq _ _ _ => true
  | .readHoldingRegistersReq _ _ _ => true
  | .readInputRegistersReq _ _ _ => true
  | .writeSingleCoilReq _ _ _ => true
  | .writeSingleRegisterReq _ _ _ => true
  | .readExceptionStatusReq _ => true
  | .diagnosticReq _ _ _ => true
  | .writeMultipleCoilsReq _ _ _ _ => true
  | .writeMultipleRegistersReq _ _ _ _ => true
  | .readWriteMultipleRegistersReq _ _ _ _ _ => true
  | .readCoilsRsp _ data => !Machine.isException data
  | .readDiscreteInputsRsp _ data => !Machine.isException data
  | .readHoldingRegistersRsp _ data => !Machine.isException data
  | .readInputRegistersRsp _ data => !Machine.isException data
  | .writeSingleCoilRsp data => !Machine.isException data
  | .writeSingleRegisterRsp data => !Machine.isException data
  | .readExceptionStatusRsp data => !Machine.isException data
  | .diagnosticRsp data => !Machine.isException data
  | .writeMultipleCoilsRsp data => !Machine.isException data
  | .writeMultipleRegistersRsp data => !Machine.isException data
  | .readWriteMultipleRegistersRsp _ data => !Machine.isException data
  | .exceptionRsp fc _ _ _ => (Machine.lookup fc).isSome
  | .crc16 _ => true
  | .encode fc _ => (Machine.lookup fc).isNone
  | .decode fc _ _ => (Machine.lookup fc).isNone
  | .buildRequest _ _ => true
  | .parseResponse _ => true
  | .parseRequest _ => true
  | .buildResponse _ => true
  | .reservedOp7 => true

/-- A value a 16-bit field holds (R87 FIELD16). -/
def isWord (v : Int) : Bool := decide (0 ≤ v ∧ v ≤ 65535)

/-- A value one byte holds (R87 BYTE8). -/
def isByte (v : Int) : Bool := decide (0 ≤ v ∧ v ≤ 255)

/-- A coil bit (R153). -/
def isBit (v : Int) : Bool := decide (v = 0 ∨ v = 1)

/-- The operands of a request row that its PDU can carry, in the one form `decodeRequestPdu` reads back: every field in
its width, counts equal to the number of elements, byte counts in one byte, values unsigned, a coil value 0 or 1, no
LEN_OVR (R84, R87; log entry 4). -/
def wireWellFormed : Instr → Bool
  | .readCoilsReq start qty lenOvr => isWord start && isWord qty && lenOvr.isNone
  | .readDiscreteInputsReq start qty lenOvr => isWord start && isWord qty && lenOvr.isNone
  | .readHoldingRegistersReq start qty lenOvr => isWord start && isWord qty && lenOvr.isNone
  | .readInputRegistersReq start qty lenOvr => isWord start && isWord qty && lenOvr.isNone
  | .writeSingleCoilReq start value lenOvr => isWord start && isBit value && lenOvr.isNone
  | .writeSingleRegisterReq start value lenOvr => isWord start && isWord value && lenOvr.isNone
  | .readExceptionStatusReq lenOvr => lenOvr.isNone
  | .diagnosticReq start values lenOvr => isWord start && values.all isByte && lenOvr.isNone
  | .writeMultipleCoilsReq start qty values lenOvr =>
    isWord start && decide (qty = values.length) && decide (values.length ≤ 2040) && values.all isBit && lenOvr.isNone
  | .writeMultipleRegistersReq start qty values lenOvr =>
    isWord start && decide (qty = values.length) && decide (values.length ≤ 127) && values.all isWord && lenOvr.isNone
  | .readWriteMultipleRegistersReq start qty waddr values lenOvr =>
    isWord start && isWord qty && isWord waddr && decide (values.length ≤ 127) && values.all isWord && lenOvr.isNone
  | .readCoilsRsp _ _ => false
  | .readDiscreteInputsRsp _ _ => false
  | .readHoldingRegistersRsp _ _ => false
  | .readInputRegistersRsp _ _ => false
  | .writeSingleCoilRsp _ => false
  | .writeSingleRegisterRsp _ => false
  | .readExceptionStatusRsp _ => false
  | .diagnosticRsp _ => false
  | .writeMultipleCoilsRsp _ => false
  | .writeMultipleRegistersRsp _ => false
  | .readWriteMultipleRegistersRsp _ _ => false
  | .exceptionRsp _ _ _ _ => false
  | .crc16 _ => false
  | .encode _ _ => false
  | .decode _ _ _ => false
  | .buildRequest _ _ => false
  | .parseResponse _ => false
  | .parseRequest _ => false
  | .buildResponse _ => false
  | .reservedOp7 => false

end Sys2Proof
end

