-- ==== Sys2Proof/Decode.lean ====
section
/-! DEFINITION. From the command port's record to an instruction, and back (30_encoding.md R80, R83, R88); from a request
PDU's bytes to its instruction (R84); and the reading of a word of spec/opcode_table.json. The spec gives a command no
binary form beyond the 3-bit OP (R80), so the record of R31 IS the instruction's encoded form (log entry 3). -/

namespace Sys2Proof

/-- An ENCODE record (OP 1): the row of its function code, with the operands R88 lists; any other function code stays the
general ENCODE. Operands the function does not read are dropped (D31). -/
def decodeEncode (c : Command) : Instr :=
  if c.fc = 0x01 then .readCoilsReq c.start c.qty c.lenOvr
  else if c.fc = 0x02 then .readDiscreteInputsReq c.start c.qty c.lenOvr
  else if c.fc = 0x03 then .readHoldingRegistersReq c.start c.qty c.lenOvr
  else if c.fc = 0x04 then .readInputRegistersReq c.start c.qty c.lenOvr
  else if c.fc = 0x05 then .writeSingleCoilReq c.start c.value c.lenOvr
  else if c.fc = 0x06 then .writeSingleRegisterReq c.start c.value c.lenOvr
  else if c.fc = 0x07 then .readExceptionStatusReq c.lenOvr
  else if c.fc = 0x08 then .diagnosticReq c.start c.values c.lenOvr
  else if c.fc = 0x0F then .writeMultipleCoilsReq c.start c.qty c.values c.lenOvr
  else if c.fc = 0x10 then .writeMultipleRegistersReq c.start c.qty c.values c.lenOvr
  else if c.fc = 0x17 then .readWriteMultipleRegistersReq c.start c.qty c.waddr c.values c.lenOvr
  else .encode c.fc
    { start := c.start, qty := c.qty, value := c.value, values := c.values, waddr := c.waddr, lenOvr := c.lenOvr }

/-- A DECODE record (OP 2) whose PDU is no exception response: the row of the FC operand, whatever byte 0 is (R90). -/
def decodeNormalDecode (c : Command) : Instr :=
  if c.fc = 0x01 then .readCoilsRsp c.qty c.data
  else if c.fc = 0x02 then .readDiscreteInputsRsp c.qty c.data
  else if c.fc = 0x03 then .readHoldingRegistersRsp c.qty c.data
  else if c.fc = 0x04 then .readInputRegistersRsp c.qty c.data
  else if c.fc = 0x05 then .writeSingleCoilRsp c.data
  else if c.fc = 0x06 then .writeSingleRegisterRsp c.data
  else if c.fc = 0x07 then .readExceptionStatusRsp c.data
  else if c.fc = 0x08 then .diagnosticRsp c.data
  else if c.fc = 0x0F then .writeMultipleCoilsRsp c.data
  else if c.fc = 0x10 then .writeMultipleRegistersRsp c.data
  else if c.fc = 0x17 then .readWriteMultipleRegistersRsp c.qty c.data
  else .decode c.fc c.qty c.data

/-- A DECODE record (OP 2): with a listed function code, byte 0 with bit 7 set makes it the EXCEPTION row (R86, R90). -/
def decodeDecode (c : Command) : Instr :=
  match c.data with
  | [] => decodeNormalDecode c
  | b :: rest =>
    if (Machine.lookup c.fc).isSome && Machine.isException c.data
    then .exceptionRsp c.fc c.qty (b.extractLsb' 0 7) rest
    else decodeNormalDecode c

/-- The instruction of a command record (R80). Total: OP = 7 is an instruction of its own. -/
def decode (c : Command) : Instr :=
  match c.op.toNat with
  | 0 => .crc16 c.data
  | 1 => decodeEncode c
  | 2 => decodeDecode c
  | 3 => .buildRequest c.data c.slave
  | 4 => .parseResponse c.data
  | 5 => .parseRequest c.data
  | 6 => .buildResponse c.data
  | _ => .reservedOp7

/-- Why bytes are no request PDU. -/
inductive DecodeError where
  | emptyPdu
  | unsupportedFunction (fc : Byte)
  | wrongLength
  | badCoilValue
  | badByteCount
  | badCount
  | padBits
  deriving DecidableEq, Repr

/-- A big-endian field as an integer (R62). -/
def fieldValue (hi lo : Byte) : Int := (hi.toNat * 256 + lo.toNat : Nat)

/-- Consecutive big-endian words (R62). -/
def fieldValues : Bytes → Except DecodeError (List Int)
  | [] => .ok []
  | [_] => .error .wrongLength
  | a :: b :: rest =>
    match fieldValues rest with
    | .ok vs => .ok (fieldValue a b :: vs)
    | .error e => .error e

/-- REQ_READ and REQ_WSR after the function code: two 16-bit fields (R84). -/
def twoFields (row : Int → Int → Instr) : Bytes → Except DecodeError Instr
  | [a, b, c, d] => .ok (row (fieldValue a b) (fieldValue c d))
  | _ => .error .wrongLength

/-- REQ_WSC after the function code: a coil value is 0xFF00 or 0x0000 (R84). -/
def addressAndCoil : Bytes → Except DecodeError Instr
  | [a, b, c, d] =>
    if c = 0xFF ∧ d = 0x00 then .ok (.writeSingleCoilReq (fieldValue a b) 1 none)
    else if c = 0x00 ∧ d = 0x00 then .ok (.writeSingleCoilReq (fieldValue a b) 0 none)
    else .error .badCoilValue
  | _ => .error .wrongLength

/-- REQ_FC_ONLY: nothing after the function code (R84). -/
def nothingMore : Bytes → Except DecodeError Instr
  | [] => .ok (.readExceptionStatusReq none)
  | _ => .error .wrongLength

/-- REQ_DIAG after the function code: the sub-function, then raw data bytes (R84). -/
def subfunctionAndData : Bytes → Except DecodeError Instr
  | a :: b :: data => .ok (.diagnosticReq (fieldValue a b) (data.map fun x => (x.toNat : Int)) none)
  | _ => .error .wrongLength

/-- REQ_WMC after the function code (R84): the final byte's pad bits are 0 (R64). -/
def packedCoils : Bytes → Except DecodeError Instr
  | a :: b :: c :: d :: bc :: data =>
    let n := c.toNat * 256 + d.toNat
    if bc.toNat ≠ Machine.ceil8 n then .error .badByteCount
    else if data.length ≠ bc.toNat then .error .wrongLength
    else if (Machine.unpackBits (8 * data.length) data).drop n |>.any (· != 0) then .error .padBits
    else .ok (.writeMultipleCoilsReq (fieldValue a b) (fieldValue c d)
      ((Machine.unpackBits n data).map fun x => (x : Int)) none)
  | _ => .error .wrongLength

/-- REQ_WMR after the function code (R84). -/
def registerBlock : Bytes → Except DecodeError Instr
  | a :: b :: c :: d :: bc :: data =>
    if bc.toNat ≠ 2 * (c.toNat * 256 + d.toNat) then .error .badByteCount
    else if data.length ≠ bc.toNat then .error .wrongLength
    else
      match fieldValues data with
      | .ok vs => .ok (.writeMultipleRegistersReq (fieldValue a b) (fieldValue c d) vs none)
      | .error e => .error e
  | _ => .error .wrongLength

/-- REQ_RWMR after the function code (R84). -/
def readAndWriteBlock : Bytes → Except DecodeError Instr
  | a :: b :: c :: d :: e :: f :: g :: h :: bc :: data =>
    if bc.toNat ≠ 2 * (g.toNat * 256 + h.toNat) then .error .badByteCount
    else if data.length ≠ bc.toNat then .error .wrongLength
    else
      match fieldValues data with
      | .ok vs => .ok (.readWriteMultipleRegistersReq (fieldValue a b) (fieldValue c d) (fieldValue e f) vs none)
      | .error e => .error e
  | _ => .error .wrongLength

/-- The request instruction a PDU's bytes spell (R84), or the named reason why they spell none. Total on any bytes. The
block itself never reads a request's fields (R252); this reader is the model's, for the table's words and for the round
trip of the layouts (log entry 4). -/
def decodeRequestPdu : Bytes → Except DecodeError Instr
  | [] => .error .emptyPdu
  | fc :: rest =>
    if fc = 0x01 then twoFields (fun start qty => .readCoilsReq start qty none) rest
    else if fc = 0x02 then twoFields (fun start qty => .readDiscreteInputsReq start qty none) rest
    else if fc = 0x03 then twoFields (fun start qty => .readHoldingRegistersReq start qty none) rest
    else if fc = 0x04 then twoFields (fun start qty => .readInputRegistersReq start qty none) rest
    else if fc = 0x05 then addressAndCoil rest
    else if fc = 0x06 then twoFields (fun start value => .writeSingleRegisterReq start value none) rest
    else if fc = 0x07 then nothingMore rest
    else if fc = 0x08 then subfunctionAndData rest
    else if fc = 0x0F then packedCoils rest
    else if fc = 0x10 then registerBlock rest
    else if fc = 0x17 then readAndWriteBlock rest
    else .error (.unsupportedFunction fc)

/-- The command record of an instruction: its OP (R80), its function code (R83) and the operands it reads (R88). -/
def encode : Instr → Command
  | .readCoilsReq start qty lenOvr => { op := 1, fc := 0x01, start, qty, lenOvr }
  | .readDiscreteInputsReq start qty lenOvr => { op := 1, fc := 0x02, start, qty, lenOvr }
  | .readHoldingRegistersReq start qty lenOvr => { op := 1, fc := 0x03, start, qty, lenOvr }
  | .readInputRegistersReq start qty lenOvr => { op := 1, fc := 0x04, start, qty, lenOvr }
  | .writeSingleCoilReq start value lenOvr => { op := 1, fc := 0x05, start, value, lenOvr }
  | .writeSingleRegisterReq start value lenOvr => { op := 1, fc := 0x06, start, value, lenOvr }
  | .readExceptionStatusReq lenOvr => { op := 1, fc := 0x07, lenOvr }
  | .diagnosticReq start values lenOvr => { op := 1, fc := 0x08, start, values, lenOvr }
  | .writeMultipleCoilsReq start qty values lenOvr => { op := 1, fc := 0x0F, start, qty, values, lenOvr }
  | .writeMultipleRegistersReq start qty values lenOvr => { op := 1, fc := 0x10, start, qty, values, lenOvr }
  | .readWriteMultipleRegistersReq start qty waddr values lenOvr =>
    { op := 1, fc := 0x17, start, qty, waddr, values, lenOvr }
  | .readCoilsRsp qty data => { op := 2, fc := 0x01, qty, data }
  | .readDiscreteInputsRsp qty data => { op := 2, fc := 0x02, qty, data }
  | .readHoldingRegistersRsp qty data => { op := 2, fc := 0x03, qty, data }
  | .readInputRegistersRsp qty data => { op := 2, fc := 0x04, qty, data }
  | .writeSingleCoilRsp data => { op := 2, fc := 0x05, data }
  | .writeSingleRegisterRsp data => { op := 2, fc := 0x06, data }
  | .readExceptionStatusRsp data => { op := 2, fc := 0x07, data }
  | .diagnosticRsp data => { op := 2, fc := 0x08, data }
  | .writeMultipleCoilsRsp data => { op := 2, fc := 0x0F, data }
  | .writeMultipleRegistersRsp data => { op := 2, fc := 0x10, data }
  | .readWriteMultipleRegistersRsp qty data => { op := 2, fc := 0x17, qty, data }
  | .exceptionRsp fc qty low rest => { op := 2, fc, qty, data := Machine.exceptionByte low :: rest }
  | .crc16 data => { op := 0, data }
  | .encode fc o =>
    { op := 1, fc, start := o.start, qty := o.qty, value := o.value, values := o.values, waddr := o.waddr,
      lenOvr := o.lenOvr }
  | .decode fc qty data => { op := 2, fc, qty, data }
  | .buildRequest data slave => { op := 3, data, slave }
  | .parseResponse data => { op := 4, data }
  | .parseRequest data => { op := 5, data }
  | .buildResponse data => { op := 6, data }
  | .reservedOp7 => { op := 7 }

/-- The shortest PDU of a request layout, its byte count 0 (R84). -/
def shortestRequest : RequestLayout → Nat
  | .reqRead => 5
  | .reqWsc => 5
  | .reqWsr => 5
  | .reqFcOnly => 1
  | .reqDiag => 3
  | .reqWmc => 6
  | .reqWmr => 6
  | .reqRwmr => 10

/-- The `n` bytes of a table word, the first one its least significant. -/
def wordBytes : Nat → Nat → Bytes
  | 0, _ => []
  | n + 1, w => BitVec.ofNat 8 w :: wordBytes n (w / 256)

/-- Bytes followed by zeros up to `n` of them. -/
def padTo (n : Nat) (bs : Bytes) : Bytes := bs ++ List.replicate (n - bs.length) 0

/-- The command record a word of spec/opcode_table.json stands for, every operand the word does not hold being 0, empty
or absent. Rows of the table share their bits (0x01 is READ_COILS.req, READ_COILS.rsp and ENCODE), so the word alone
cannot tell them apart: a word below 8 is read as a command's OP, a byte with bit 7 set as an exception response to
function 0x03, and any other byte as a request PDU's function code (log entry 5). -/
def commandOfTableWord (nbits w : Nat) : Option Command :=
  if nbits < 8 then some { op := BitVec.ofNat 3 w }
  else
    match wordBytes (nbits / 8) w with
    | [] => none
    | b :: rest =>
      if b.toNat < 8 ∧ rest.all (· == 0) then some { op := b.extractLsb' 0 3 }
      else if Machine.isException (b :: rest) then some { op := 2, fc := 0x03, data := b :: rest ++ [0] }
      else
        match Machine.lookup b.toNat with
        | none => none
        | some d =>
          match decodeRequestPdu (padTo (shortestRequest d.requestLayout) (b :: rest)) with
          | .ok i => some (encode i)
          | .error _ => none

/-- The instruction of a word of spec/opcode_table.json (log entry 5). -/
def decodeTableWord (nbits w : Nat) : Option Instr :=
  (commandOfTableWord nbits w).map decode

end Sys2Proof
end

