-- ==== Sys2Proof/Machine/Flags.lean ====
section
/-! DEFINITION. The flags of one outcome: STATUS, DETAIL and EXC_CODE (10_state.md R32, R37; 60_exceptions.md R280 to
R283). The numeric codes are the spec's decisions D11 and D12. -/

namespace Sys2Proof.Machine

/-- The number of a STATUS (R281). 6 and 7 are never produced. -/
def Status.code : Status → Nat
  | .ok => 0
  | .unsupportedFunction => 1
  | .invalidArgument => 2
  | .invalidRequestFrame => 3
  | .invalidResponseFrame => 4
  | .slaveException => 5

/-- The number of a DETAIL (R282). -/
def Detail.code : Detail → Nat
  | .none => 0
  | .addrRange => 1
  | .fieldRange => 2
  | .valueRange => 3
  | .byteCountRange => 4
  | .dataByteRange => 5
  | .noRequest => 6
  | .tooShort => 7
  | .addrMismatch => 8
  | .crcMismatch => 9
  | .byteCountMismatch => 10
  | .layoutMismatch => 11
  | .emptyPdu => 12

/-- `STATUS <- code(K)` (R280). -/
def Error.status : Error → Status
  | .unsupportedFunction => .unsupportedFunction
  | .invalidArgument _ => .invalidArgument
  | .invalidRequestFrame _ => .invalidRequestFrame
  | .invalidResponseFrame _ => .invalidResponseFrame
  | .slaveException _ => .slaveException

/-- `DETAIL <- detail`, 0 for UnsupportedFunction and SlaveException (R280). -/
def Error.detail : Error → Detail
  | .unsupportedFunction => .none
  | .invalidArgument d => d
  | .invalidRequestFrame d => d
  | .invalidResponseFrame d => d
  | .slaveException _ => .none

/-- `EXC_CODE`: the exception code of a SlaveException, unchanged; 0 otherwise (R280, R283). -/
def Error.excCode : Error → Byte
  | .unsupportedFunction => 0
  | .invalidArgument _ => 0
  | .invalidRequestFrame _ => 0
  | .invalidResponseFrame _ => 0
  | .slaveException code => code

/-- The response port after an error: the three flags and no result field (R280, D45). -/
def errorResponse (e : Error) : Response :=
  { status := e.status, detail := e.detail, excCode := e.excCode }

end Sys2Proof.Machine
end

