-- ==== Sys2Proof/Machine/Ops.lean ====
section
/-! DEFINITION. How a command ends (00_scope.md R10, 60_exceptions.md R280, R286) and the one write of the framer's
register (10_state.md R33). The block has no return from an exception (R288): an error saves nothing, and the next command
simply runs. -/

namespace Sys2Proof.Machine

/-- A command completes: the whole response port is its outcome and the command index goes up by one (R32, R36). -/
def complete (r : Response) (s : State) : State :=
  { s with response := r, index := s.index + 1 }

/-- Taking the block's one kind of exception, `raise K(detail)` (R280): the error's flags go to the response port with no
result field, LAST_ADDR and LAST_VALID keep their values, and the command is over. -/
def raiseError (e : Error) (s : State) : State :=
  complete (errorResponse e) s

/-- `LAST_ADDR <- a; LAST_VALID <- 1` (R33). -/
def recordAddress (a : Byte) (s : State) : State :=
  { s with lastAddr := a, lastValid := true }

/-- `return` and `raise` of a command that writes no register (R10). -/
def finish (r : Except Error Response) (s : State) : Host.Outcome State Fault Refusal :=
  match r with
  | .ok out => .next (complete out s)
  | .error e => .next (raiseError e s)

/-- `refuse(reason)` (R286): the command has no outcome at all. -/
def refuse (reason : Refusal) : Host.Outcome State Fault Refusal :=
  .refused reason

end Sys2Proof.Machine
end

