-- ==== Sys2Proof/Machine/Encode.lean ====
section
/-! DEFINITION. Request encoding (41_codec_encode.md): ENCODE (R150) and its eleven functions (R154 to R164), each a
request row of the opcode table. The codec reads and writes no register. -/

namespace Sys2Proof.Machine

/-- The request PDU of each layout, its fields assembled in index order, so that the first one that does not fit raises
(R84, R154 to R164). -/
def requestPdu (d : Descriptor) (o : EncodeOperands) : Except Error Bytes :=
  match d.requestLayout with
  | .reqRead => do
    let start ← field16 o.start
    let qty ← field16 o.qty
    return [d.fc] ++ start ++ qty
  | .reqWsc => do
    let start ← field16 o.start
    return [d.fc] ++ start ++ coil16 o.value
  | .reqWsr => do
    let start ← field16 o.start
    let value ← val16 o.value
    return [d.fc] ++ start ++ value
  | .reqFcOnly => return [d.fc]
  | .reqDiag => do
    let start ← field16 o.start
    let data ← assembleEach byte8 o.values
    return [d.fc] ++ start ++ data
  | .reqWmc => do
    let start ← field16 o.start
    let qty ← field16 o.qty
    let bc ← bc8 (ceil8 o.qty.toNat)
    return [d.fc] ++ start ++ qty ++ bc ++ packBits o.values
  | .reqWmr => do
    let start ← field16 o.start
    let qty ← field16 o.qty
    let bc ← bc8 (2 * o.qty.toNat)
    let data ← assembleEach val16 o.values
    return [d.fc] ++ start ++ qty ++ bc ++ data
  | .reqRwmr => do
    let start ← field16 o.start
    let qty ← field16 o.qty
    let waddr ← field16 o.waddr
    let count ← field16 o.values.length
    let bc ← bc8 (2 * o.values.length)
    let data ← assembleEach val16 o.values
    return [d.fc] ++ start ++ qty ++ waddr ++ count ++ bc ++ data

/-- `el`: the length of the normal response frame, address and CRC included (R152). -/
def expectedLength (family : Family) (o : EncodeOperands) : Nat :=
  match family with
  | .readBits => ceil8 o.qty.toNat + 5
  | .readWords => 2 * o.qty.toNat + 5
  | .writeEcho => 8
  | .statusByte => 5
  | .diag => o.values.length + 6
  | .readWriteWords => 2 * o.qty.toNat + 5

/-- The decode context CTX: the quantity for the families that decode by it, else 0 (R150). -/
def decodeContext (d : Descriptor) (o : EncodeOperands) : Byte × Word :=
  (d.fc, if d.family.readFlag then BitVec.ofInt 16 o.qty else 0)

/-- The caller's precondition of the two multiple-write functions holds (R153). -/
def preconditionHolds (d : Descriptor) (o : EncodeOperands) : Bool :=
  match d.requestLayout with
  | .reqWmc => decide ((o.values.length : Int) = o.qty) && o.values.all (fun v => v == 0 || v == 1)
  | .reqWmr => decide ((o.values.length : Int) = o.qty)
  | .reqRead => true
  | .reqWsc => true
  | .reqWsr => true
  | .reqFcOnly => true
  | .reqDiag => true
  | .reqRwmr => true

/-- ENCODE's results once the PDU is assembled (R150, R152). -/
def encodeResults (d : Descriptor) (o : EncodeOperands) : Except Error Response := do
  let pdu ← requestPdu d o
  return { pdu := some pdu, expLen := some (o.lenOvr.getD (expectedLength d.family o)), ctx := some (decodeContext d o) }

/-- ENCODE after the lookup: the precondition, then the fields in layout order (R150, R284). -/
def runEncode (d : Descriptor) (o : EncodeOperands) (s : State) : Host.Outcome State Fault Refusal :=
  if preconditionHolds d o then finish (encodeResults d o) s else refuse .precondition

/-- ENCODE (R150): the lookup comes before any other check (R151). -/
def execEncode (fc : Int) (ops : EncodeOperands) (s : State) : Host.Outcome State Fault Refusal :=
  match lookup fc with
  | none => .next (raiseError .unsupportedFunction s)
  | some d => runEncode d ops s

/-- READ_COILS.req (R154). -/
def execReadCoilsReq (start qty : Int) (lenOvr : Option Nat) (s : State) : Host.Outcome State Fault Refusal :=
  runEncode readCoils { start, qty, lenOvr } s

/-- READ_DISCRETE_INPUTS.req (R155). -/
def execReadDiscreteInputsReq (start qty : Int) (lenOvr : Option Nat) (s : State) : Host.Outcome State Fault Refusal :=
  runEncode readDiscreteInputs { start, qty, lenOvr } s

/-- READ_HOLDING_REGISTERS.req (R156). -/
def execReadHoldingRegistersReq (start qty : Int) (lenOvr : Option Nat) (s : State) :
    Host.Outcome State Fault Refusal :=
  runEncode readHoldingRegisters { start, qty, lenOvr } s

/-- READ_INPUT_REGISTERS.req (R157). -/
def execReadInputRegistersReq (start qty : Int) (lenOvr : Option Nat) (s : State) : Host.Outcome State Fault Refusal :=
  runEncode readInputRegisters { start, qty, lenOvr } s

/-- WRITE_SINGLE_COIL.req (R158). -/
def execWriteSingleCoilReq (start value : Int) (lenOvr : Option Nat) (s : State) : Host.Outcome State Fault Refusal :=
  runEncode writeSingleCoil { start, value, lenOvr } s

/-- WRITE_SINGLE_REGISTER.req (R159). -/
def execWriteSingleRegisterReq (start value : Int) (lenOvr : Option Nat) (s : State) :
    Host.Outcome State Fault Refusal :=
  runEncode writeSingleRegister { start, value, lenOvr } s

/-- READ_EXCEPTION_STATUS.req (R160). -/
def execReadExceptionStatusReq (lenOvr : Option Nat) (s : State) : Host.Outcome State Fault Refusal :=
  runEncode readExceptionStatus { lenOvr } s

/-- DIAGNOSTIC.req (R161): START is the sub-function. -/
def execDiagnosticReq (start : Int) (values : List Int) (lenOvr : Option Nat) (s : State) :
    Host.Outcome State Fault Refusal :=
  runEncode diagnostic { start, values, lenOvr } s

/-- WRITE_MULTIPLE_COILS.req (R162). -/
def execWriteMultipleCoilsReq (start qty : Int) (values : List Int) (lenOvr : Option Nat) (s : State) :
    Host.Outcome State Fault Refusal :=
  runEncode writeMultipleCoils { start, qty, values, lenOvr } s

/-- WRITE_MULTIPLE_REGISTERS.req (R163). -/
def execWriteMultipleRegistersReq (start qty : Int) (values : List Int) (lenOvr : Option Nat) (s : State) :
    Host.Outcome State Fault Refusal :=
  runEncode writeMultipleRegisters { start, qty, values, lenOvr } s

/-- READ_WRITE_MULTIPLE_REGISTERS.req (R164). -/
def execReadWriteMultipleRegistersReq (start qty waddr : Int) (values : List Int) (lenOvr : Option Nat) (s : State) :
    Host.Outcome State Fault Refusal :=
  runEncode readWriteMultipleRegisters { start, qty, waddr, values, lenOvr } s

end Sys2Proof.Machine
end

