-- ==== Sys2Proof/Machine/Params.lean ====
section
/-! DEFINITION. The values of the parameters (00_scope.md R6). -/

namespace Sys2Proof.Machine

/-- R6: reflected polynomial 0xA001, initial register 0xFFFF, CRC low byte first on the wire (R63, D4; log entry 7). -/
def config : Config :=
  { crcPoly := 0xA001#16, crcInit := 0xFFFF#16, crcByteOrder := .lowFirst }

end Sys2Proof.Machine
end

