-- ==== Sys2Proof/Machine/Crc.lean ====
section
/-! DEFINITION. The CRC engine (40_crc.md): `crc16` (R130), the trailer's bytes (20_memory.md R63), and the command CRC16
(R131). The working register of 10_state.md R35 is the fold's accumulator. -/

namespace Sys2Proof.Machine

/-- One shift of the working register: XOR the polynomial when the bit shifted out is 1 (R130). -/
def crcShift (crc : Word) : Word :=
  if crc.getLsbD 0 then (crc >>> 1) ^^^ config.crcPoly else crc >>> 1

/-- `n` shifts. -/
def crcShifts : Nat → Word → Word
  | 0, crc => crc
  | n + 1, crc => crcShifts n (crcShift crc)

/-- One byte: XOR into the low 8 bits, then 8 shifts (R130). -/
def crcByte (crc : Word) (b : Byte) : Word := crcShifts 8 (crc ^^^ b.zeroExtend 16)

/-- `crc16(bs)` (R130): no final XOR. -/
def crc16 (bs : Bytes) : Word := bs.foldl crcByte config.crcInit

/-- The trailer of a CRC in a given byte order (R6, R63, D4). -/
def crcTrailer (order : CrcByteOrder) (c : Word) : Bytes :=
  match order with
  | .lowFirst => [c.extractLsb' 0 8, c.extractLsb' 8 8]
  | .highFirst => [c.extractLsb' 8 8, c.extractLsb' 0 8]

/-- CRC16 (R131): never raises. -/
def execCrc16 (data : Bytes) (s : State) : Host.Outcome State Fault Refusal :=
  finish (.ok { crc := some (crc16 data) }) s

end Sys2Proof.Machine
end

