-- ==== Sys2Proof/Machine/Framer.lean ====
section
/-! DEFINITION. The RTU framer (43_framer.md): BUILD_REQUEST, PARSE_RESPONSE, PARSE_REQUEST and BUILD_RESPONSE (R250 to
R253), the frame's layout (30_encoding.md R81) and its acceptance (R254). No extension point is invoked (R257). -/

namespace Sys2Proof.Machine

/-- Address, PDU, CRC trailer (R81), the trailer in a given byte order. -/
def buildFrame (order : CrcByteOrder) (address : Byte) (pdu : Bytes) : Bytes :=
  (address :: pdu) ++ crcTrailer order (crc16 (address :: pdu))

/-- `crc_ok(F)` (R254) for a frame of at least 3 bytes, the trailer in a given byte order. -/
def crcOk (order : CrcByteOrder) (f : Bytes) : Bool :=
  memRead f (f.length - 2) 2 == crcTrailer order (crc16 (memRead f 0 (f.length - 2)))

/-- `DATA[1..L-2)`: the PDU of a frame (R81, R251). -/
def framePdu (f : Bytes) : Bytes := memRead f 1 (f.length - 3)

/-- BUILD_REQUEST (R250): LAST_ADDR and LAST_VALID are written only on success. -/
def execBuildRequest (data : Bytes) (slave : Int) (s : State) : Host.Outcome State Fault Refusal :=
  match addr8 slave with
  | .error e => .next (raiseError e s)
  | .ok a => .next (complete { frame := some (buildFrame config.crcByteOrder a data) } (recordAddress a s))

/-- The checks of PARSE_RESPONSE, in its order (R251, R284). -/
def parsedResponse (s : State) (f : Bytes) : Except Error Response :=
  if f.length < 3 then .error (.invalidResponseFrame .tooShort)
  else if s.lastValid = false then .error (.invalidResponseFrame .noRequest)
  else if byteAt f 0 ≠ s.lastAddr then .error (.invalidResponseFrame .addrMismatch)
  else if crcOk config.crcByteOrder f = false then .error (.invalidResponseFrame .crcMismatch)
  else .ok { pdu := some (framePdu f) }

/-- PARSE_RESPONSE (R251): reads the register and writes nothing. -/
def execParseResponse (data : Bytes) (s : State) : Host.Outcome State Fault Refusal :=
  finish (parsedResponse s data) s

/-- The checks of PARSE_REQUEST, in its order: there is no address check (R252, C2). -/
def parsedRequest (f : Bytes) : Except Error Response :=
  if f.length < 3 then .error (.invalidRequestFrame .tooShort)
  else if crcOk config.crcByteOrder f = false then .error (.invalidRequestFrame .crcMismatch)
  else .ok { addr := some (byteAt f 0), pdu := some (framePdu f) }

/-- PARSE_REQUEST (R252): LAST_ADDR and LAST_VALID are written only on success. -/
def execParseRequest (data : Bytes) (s : State) : Host.Outcome State Fault Refusal :=
  match parsedRequest data with
  | .error e => .next (raiseError e s)
  | .ok r => .next (complete r (recordAddress (byteAt data 0) s))

/-- BUILD_RESPONSE (R253): frames with the recorded address and writes nothing. -/
def execBuildResponse (data : Bytes) (s : State) : Host.Outcome State Fault Refusal :=
  if s.lastValid = false then .next (raiseError (.invalidArgument .noRequest) s)
  else .next (complete { frame := some (buildFrame config.crcByteOrder s.lastAddr data) } s)

end Sys2Proof.Machine
end

