-- ==== Sys2Proof/Machine/Reserved.lean ====
section
/-! DEFINITION. The reserved command, OP = 7 (30_encoding.md R80, 60_exceptions.md R286). -/

namespace Sys2Proof.Machine

/-- RESERVED_OP7 (R286): "A command with OP = 7 is refused (no outcome)". -/
def execReservedOp7 (_ : State) : Host.Outcome State Fault Refusal :=
  refuse .reservedOp

end Sys2Proof.Machine
end

