-- ==== Sys2Proof/Machine/Response.lean ====
section
/-! DEFINITION. Response decoding (42_codec_decode.md): DECODE (R200), its eleven functions (R205 to R215) and the
exception response (R202), each a response row of the opcode table. The codec reads and writes no register. -/

namespace Sys2Proof.Machine

/-- The quantity check of the families that decode by it (R200). -/
def checkQuantity (d : Descriptor) (qty : Int) : Except Error Unit :=
  if d.family.readFlag = true ∧ ¬(0 ≤ qty ∧ qty ≤ 65535) then .error (.invalidArgument .fieldRange) else .ok ()

/-- `check_exception(p)` (R202). -/
def checkException (p : Bytes) : Except Error Unit :=
  if p.length = 0 then .error (.invalidResponseFrame .emptyPdu)
  else if isException p then
    if p.length < 2 then .error (.invalidResponseFrame .tooShort)
    else .error (.slaveException (byteAt p 1))
  else .ok ()

/-- `read_data(p)` (R204): the data bytes, if there are as many as byte 1 says. -/
def readData (p : Bytes) : Except Error Bytes :=
  if p.length < 2 then .error (.invalidResponseFrame .tooShort)
  else if (byteAt p 1).toNat ≠ (p.drop 2).length then .error (.invalidResponseFrame .byteCountMismatch)
  else .ok (p.drop 2)

/-- Data of any other size than the function's layout fixes (R282 LAYOUT_MISMATCH). -/
def requireLayout (fits : Bool) : Except Error Unit :=
  if fits then .ok () else .error (.invalidResponseFrame .layoutMismatch)

/-- `decode_d(p, q)` by the descriptor's response layout (R85, R203, R205 to R215). -/
def decodePayload (layout : ResponseLayout) (p : Bytes) (q : Nat) : Except Error (List Nat) :=
  match layout with
  | .rspBits => do
    let data ← readData p
    requireLayout (data.length == ceil8 q)
    return unpackBits q data
  | .rspWords => do
    let data ← readData p
    requireLayout (data.length == 2 * q)
    return unpackWords q data
  | .rspEcho => do
    let rest := p.drop 1
    requireLayout (rest.length == 4)
    return [rd16 rest 0, rd16 rest 2]
  | .rspStatus => do
    let rest := p.drop 1
    requireLayout (rest.length == 1)
    return [(byteAt rest 0).toNat]
  | .rspDiag => do
    let rest := p.drop 1
    requireLayout (decide (2 ≤ rest.length))
    return rd16 rest 0 :: (rest.drop 2).map BitVec.toNat

/-- DECODE's result: all of VALUES_OUT or none of it (R200, R201). -/
def decodeResults (d : Descriptor) (qty : Int) (p : Bytes) : Except Error Response := do
  checkQuantity d qty
  checkException p
  let values ← decodePayload d.responseLayout p qty.toNat
  return { valuesOut := some values }

/-- DECODE after the lookup (R200, R284). -/
def runDecode (d : Descriptor) (qty : Int) (p : Bytes) (s : State) : Host.Outcome State Fault Refusal :=
  finish (decodeResults d qty p) s

/-- DECODE (R200): the FC operand chooses the rule, not byte 0 of DATA (R90). -/
def execDecode (fc qty : Int) (data : Bytes) (s : State) : Host.Outcome State Fault Refusal :=
  match lookup fc with
  | none => .next (raiseError .unsupportedFunction s)
  | some d => runDecode d qty data s

/-- READ_COILS.rsp (R205). -/
def execReadCoilsRsp (qty : Int) (data : Bytes) (s : State) : Host.Outcome State Fault Refusal :=
  runDecode readCoils qty data s

/-- READ_DISCRETE_INPUTS.rsp (R206). -/
def execReadDiscreteInputsRsp (qty : Int) (data : Bytes) (s : State) : Host.Outcome State Fault Refusal :=
  runDecode readDiscreteInputs qty data s

/-- READ_HOLDING_REGISTERS.rsp (R207). -/
def execReadHoldingRegistersRsp (qty : Int) (data : Bytes) (s : State) : Host.Outcome State Fault Refusal :=
  runDecode readHoldingRegisters qty data s

/-- READ_INPUT_REGISTERS.rsp (R208). -/
def execReadInputRegistersRsp (qty : Int) (data : Bytes) (s : State) : Host.Outcome State Fault Refusal :=
  runDecode readInputRegisters qty data s

/-- WRITE_SINGLE_COIL.rsp (R209): QTY is ignored. -/
def execWriteSingleCoilRsp (data : Bytes) (s : State) : Host.Outcome State Fault Refusal :=
  runDecode writeSingleCoil 0 data s

/-- WRITE_SINGLE_REGISTER.rsp (R210): QTY is ignored. -/
def execWriteSingleRegisterRsp (data : Bytes) (s : State) : Host.Outcome State Fault Refusal :=
  runDecode writeSingleRegister 0 data s

/-- READ_EXCEPTION_STATUS.rsp (R211): QTY is ignored. -/
def execReadExceptionStatusRsp (data : Bytes) (s : State) : Host.Outcome State Fault Refusal :=
  runDecode readExceptionStatus 0 data s

/-- DIAGNOSTIC.rsp (R212): QTY is ignored. -/
def execDiagnosticRsp (data : Bytes) (s : State) : Host.Outcome State Fault Refusal :=
  runDecode diagnostic 0 data s

/-- WRITE_MULTIPLE_COILS.rsp (R213): QTY is ignored. -/
def execWriteMultipleCoilsRsp (data : Bytes) (s : State) : Host.Outcome State Fault Refusal :=
  runDecode writeMultipleCoils 0 data s

/-- WRITE_MULTIPLE_REGISTERS.rsp (R214): QTY is ignored. -/
def execWriteMultipleRegistersRsp (data : Bytes) (s : State) : Host.Outcome State Fault Refusal :=
  runDecode writeMultipleRegisters 0 data s

/-- READ_WRITE_MULTIPLE_REGISTERS.rsp (R215). -/
def execReadWriteMultipleRegistersRsp (qty : Int) (data : Bytes) (s : State) : Host.Outcome State Fault Refusal :=
  runDecode readWriteMultipleRegisters qty data s

/-- EXCEPTION.rsp (R202): DECODE of a PDU whose first byte has bit 7 set, with the checks R284 puts before it. -/
def execExceptionRsp (fc qty : Int) (low : BitVec 7) (rest : Bytes) (s : State) : Host.Outcome State Fault Refusal :=
  match lookup fc with
  | none => .next (raiseError .unsupportedFunction s)
  | some d => runDecode d qty (exceptionByte low :: rest) s

end Sys2Proof.Machine
end

