-- ==== Sys2Proof/Machine/Dispatch.lean ====
section
/-! DEFINITION. The dispatch: one arm for each instruction, one direct call of its meaning. -/

namespace Sys2Proof.Machine

def exec (i : Instr) (s : State) : Host.Outcome State Fault Refusal :=
  match i with
  | .readCoilsReq start qty lenOvr => Sys2Proof.Machine.execReadCoilsReq start qty lenOvr s
  | .readDiscreteInputsReq start qty lenOvr => Sys2Proof.Machine.execReadDiscreteInputsReq start qty lenOvr s
  | .readHoldingRegistersReq start qty lenOvr => Sys2Proof.Machine.execReadHoldingRegistersReq start qty lenOvr s
  | .readInputRegistersReq start qty lenOvr => Sys2Proof.Machine.execReadInputRegistersReq start qty lenOvr s
  | .writeSingleCoilReq start value lenOvr => Sys2Proof.Machine.execWriteSingleCoilReq start value lenOvr s
  | .writeSingleRegisterReq start value lenOvr => Sys2Proof.Machine.execWriteSingleRegisterReq start value lenOvr s
  | .readExceptionStatusReq lenOvr => Sys2Proof.Machine.execReadExceptionStatusReq lenOvr s
  | .diagnosticReq start values lenOvr => Sys2Proof.Machine.execDiagnosticReq start values lenOvr s
  | .writeMultipleCoilsReq start qty values lenOvr => Sys2Proof.Machine.execWriteMultipleCoilsReq start qty values lenOvr s
  | .writeMultipleRegistersReq start qty values lenOvr => Sys2Proof.Machine.execWriteMultipleRegistersReq start qty values lenOvr s
  | .readWriteMultipleRegistersReq start qty waddr values lenOvr => Sys2Proof.Machine.execReadWriteMultipleRegistersReq start qty waddr values lenOvr s
  | .readCoilsRsp qty data => Sys2Proof.Machine.execReadCoilsRsp qty data s
  | .readDiscreteInputsRsp qty data => Sys2Proof.Machine.execReadDiscreteInputsRsp qty data s
  | .readHoldingRegistersRsp qty data => Sys2Proof.Machine.execReadHoldingRegistersRsp qty data s
  | .readInputRegistersRsp qty data => Sys2Proof.Machine.execReadInputRegistersRsp qty data s
  | .writeSingleCoilRsp data => Sys2Proof.Machine.execWriteSingleCoilRsp data s
  | .writeSingleRegisterRsp data => Sys2Proof.Machine.execWriteSingleRegisterRsp data s
  | .readExceptionStatusRsp data => Sys2Proof.Machine.execReadExceptionStatusRsp data s
  | .diagnosticRsp data => Sys2Proof.Machine.execDiagnosticRsp data s
  | .writeMultipleCoilsRsp data => Sys2Proof.Machine.execWriteMultipleCoilsRsp data s
  | .writeMultipleRegistersRsp data => Sys2Proof.Machine.execWriteMultipleRegistersRsp data s
  | .readWriteMultipleRegistersRsp qty data => Sys2Proof.Machine.execReadWriteMultipleRegistersRsp qty data s
  | .exceptionRsp fc qty low rest => Sys2Proof.Machine.execExceptionRsp fc qty low rest s
  | .crc16 data => Sys2Proof.Machine.execCrc16 data s
  | .encode fc ops => Sys2Proof.Machine.execEncode fc ops s
  | .decode fc qty data => Sys2Proof.Machine.execDecode fc qty data s
  | .buildRequest data slave => Sys2Proof.Machine.execBuildRequest data slave s
  | .parseResponse data => Sys2Proof.Machine.execParseResponse data s
  | .parseRequest data => Sys2Proof.Machine.execParseRequest data s
  | .buildResponse data => Sys2Proof.Machine.execBuildResponse data s
  | .reservedOp7 => Sys2Proof.Machine.execReservedOp7 s

end Sys2Proof.Machine
end

