-- ==== Sys2Proof/Machine/Step.lean ====
section
/-! DEFINITION. One step: the block takes the host's next action from the command port and does it (20_memory.md R67, R69;
10_state.md R36). -/

namespace Sys2Proof.Machine

/-- One step. A command is one indivisible step (R67); a reset falls between commands (R311) and sets every field to its
reset value, while what the host does after it still follows (log entry 6); with no action left the run has ended (R321,
log entry 1). -/
def step (s : State) : Host.Outcome State Fault Refusal :=
  match s.port with
  | [] => .fault .endOfRun
  | .reset :: rest => .next { State.reset with port := rest }
  | .command c :: rest => exec (decode c) { s with port := rest }

/-- `s` with the command of a table word issued next (log entries 1 and 5): the very next step runs it. -/
def State.withFetchWord (s : State) (nbits w : Nat) : State :=
  match commandOfTableWord nbits w with
  | none => s
  | some c => { s with port := .command c :: s.port }

end Sys2Proof.Machine
end

