-- ==== Sys2Proof/Machine/Runs.lean ====
section
/-! DEFINITION. What a host sees of the block: a run of commands and its observation (70_reset_and_hazards.md R320, R321),
the two pseudo-commands (30_encoding.md R93), and several instances (10_state.md R39). -/

namespace Sys2Proof.Machine

/-- The host issues one command and waits for its outcome (R320). -/
def issue (c : Command) (s : State) : Host.Outcome State Fault Refusal :=
  exec (decode c) s

/-- What is observed of a run: the outcomes, one per command in order, and the final register (R321). -/
structure Observation where
  outcomes  : List Response
  lastAddr  : Byte
  lastValid : Bool
  deriving DecidableEq, Repr

/-- The observation of a run from `s`; a run with a refused command is refused (R286, R321). -/
def observe : List Command → State → Host.Outcome Observation Fault Refusal
  | [], s => .next { outcomes := [], lastAddr := s.lastAddr, lastValid := s.lastValid }
  | c :: cs, s =>
    match issue c s with
    | .fault r => .fault r
    | .refused r => .refused r
    | .next t =>
      match observe cs t with
      | .fault r => .fault r
      | .refused r => .refused r
      | .next o => .next { o with outcomes := t.response :: o.outcomes }

/-- REQUEST (R93): ENCODE, then BUILD_REQUEST of its PDU if its STATUS is OK. Not atomic; its outcome is that of the last
command issued. -/
def requestMacro (slave fc : Int) (o : EncodeOperands) (s : State) : Host.Outcome State Fault Refusal :=
  match issue (encode (.encode fc o)) s with
  | .fault r => .fault r
  | .refused r => .refused r
  | .next t =>
    match t.response.status, t.response.pdu with
    | .ok, some pdu => issue { op := 3, data := pdu, slave := slave } t
    | _, _ => .next t

/-- RESPONSE (R93): PARSE_RESPONSE, then DECODE of its PDU in the context of the ENCODE if its STATUS is OK. -/
def responseMacro (ctx : Byte × Word) (frame : Bytes) (s : State) : Host.Outcome State Fault Refusal :=
  match issue { op := 4, data := frame } s with
  | .fault r => .fault r
  | .refused r => .refused r
  | .next t =>
    match t.response.status, t.response.pdu with
    | .ok, some pdu => issue { op := 2, fc := ctx.1.toNat, qty := ctx.2.toNat, data := pdu } t
    | _, _ => .next t

/-- Any number of instances, each with a state of its own (R39; log entry 8). -/
structure System where
  instances : List State
  deriving DecidableEq, Repr

/-- Instance `k` makes a step; the others keep their state (R39). No result when there is no instance `k`. -/
def System.stepAt (k : Nat) (y : System) : Option (Host.Outcome System Fault Refusal) :=
  match y.instances[k]? with
  | none => none
  | some s =>
    match step s with
    | .next t => some (.next { y with instances := y.instances.set k t })
    | .fault r => some (.fault r)
    | .refused r => some (.refused r)

end Sys2Proof.Machine
end

