-- ==== Sys2Proof/Safety.lean ====
section
/-! DEFINITION. The terms claims are stated in: what it is for an instruction to complete with an outcome, the outcomes
written out from 60_exceptions.md, and the invariant of a safe state. Nothing here is used by the machine. -/

namespace Sys2Proof.Safety

open Machine

/-- `i` completes in `s` with the outcome `r` and changes nothing else: the response port becomes `r`, the command index
goes up by one, and LAST_ADDR, LAST_VALID and the host's further actions are as before. -/
def Answers (i : Instr) (s : State) (r : Response) : Prop :=
  exec i s = .next { s with response := r, index := s.index + 1 }

/-- `i` completes in `s` with the outcome `r`, recording the address `a` in LAST_ADDR and setting LAST_VALID. -/
def Records (i : Instr) (s : State) (a : Byte) (r : Response) : Prop :=
  exec i s = .next { s with lastAddr := a, lastValid := true, response := r, index := s.index + 1 }

/-- `i` is a request for the address `a` that succeeds in `s`: a BUILD_REQUEST whose SLAVE is `a`, or a PARSE_REQUEST of a
frame whose first byte is `a` (R33, R313). -/
def RequestSucceeds (i : Instr) (a : Byte) (s t : State) : Prop :=
  exec i s = .next t ∧ t.response.status = .ok ∧
    ((∃ pdu, i = .buildRequest pdu a.toNat) ∨ ∃ frame, i = .parseRequest frame ∧ frame.head? = some a)

/-- `i` is a request that completes with an error in `s`. -/
def RequestFails (i : Instr) (s t : State) : Prop :=
  exec i s = .next t ∧ t.response.status ≠ .ok ∧
    ((∃ pdu slave, i = .buildRequest pdu slave) ∨ ∃ frame, i = .parseRequest frame)

/-- The outcome of an error other than SlaveException: STATUS and DETAIL, EXC_CODE 0, no result field (R280). -/
def errorOutcome (kind : Status) (detail : Detail) : Response :=
  { status := kind, detail := detail }

/-- The outcome of SlaveException(code) (R280, R283). -/
def slaveOutcome (code : Byte) : Response :=
  { status := .slaveException, excCode := code }

/-- The eleven function codes of R83. -/
def supported : List Int := [0x01, 0x02, 0x03, 0x04, 0x05, 0x06, 0x07, 0x08, 0x0F, 0x10, 0x17]

/-- The function codes whose DECODE checks QTY (R200). -/
def countedByQuantity : List Int := [0x01, 0x02, 0x03, 0x04, 0x17]

/-- A 16-bit value's two bytes, most significant first, by integer division; a negative value in two's complement. -/
def twoBytes (v : Int) : Bytes := [BitVec.ofInt 8 (v / 256), BitVec.ofInt 8 v]

/-- `v` does not fit an unsigned 16-bit field. -/
abbrev outsideWord (v : Int) : Prop := v < 0 ∨ 65535 < v

/-- `v` fits VAL16's range (R87). -/
abbrev registerValue (v : Int) : Prop := -32768 ≤ v ∧ v ≤ 65535

/-- The outcome of a DECODE by R202: no PDU, an exception PDU, or else `normal` of the bytes after the first. -/
def checkedPdu (p : Bytes) (normal : Bytes → Response) : Response :=
  match p with
  | [] => errorOutcome .invalidResponseFrame .emptyPdu
  | b :: rest =>
    if b.getLsbD 7 then
      match rest with
      | [] => errorOutcome .invalidResponseFrame .tooShort
      | code :: _ => slaveOutcome code
    else normal rest

/-- The outcome of R204 on the bytes after the function code: a byte count and that many data bytes. -/
def countedData (rest : Bytes) (normal : Bytes → Response) : Response :=
  match rest with
  | [] => errorOutcome .invalidResponseFrame .tooShort
  | bc :: data => if bc.toNat = data.length then normal data else errorOutcome .invalidResponseFrame .byteCountMismatch

/-- The outcome of RSP_BITS (R205) for the quantity `q`, on the bytes after the function code. -/
def bitsOutcome (q : Nat) (rest : Bytes) : Response :=
  countedData rest fun data =>
    if data.length = (q + 7) / 8 then
      { valuesOut := some ((List.range q).map fun k => ((data.getD (k / 8) 0).getLsbD (k % 8)).toNat) }
    else errorOutcome .invalidResponseFrame .layoutMismatch

/-- The outcome of RSP_WORDS (R207) for the quantity `q`, on the bytes after the function code. -/
def wordsOutcome (q : Nat) (rest : Bytes) : Response :=
  countedData rest fun data =>
    if data.length = 2 * q then
      { valuesOut := some ((List.range q).map fun k =>
          (data.getD (2 * k) 0).toNat * 256 + (data.getD (2 * k + 1) 0).toNat) }
    else errorOutcome .invalidResponseFrame .layoutMismatch

/-- The outcome of RSP_ECHO (R209) on the bytes after the function code. -/
def echoOutcome (rest : Bytes) : Response :=
  match rest with
  | [a, b, c, d] => { valuesOut := some [a.toNat * 256 + b.toNat, c.toNat * 256 + d.toNat] }
  | _ => errorOutcome .invalidResponseFrame .layoutMismatch

/-- The outcome of RSP_STATUS (R211) on the bytes after the function code. -/
def statusOutcome (rest : Bytes) : Response :=
  match rest with
  | [b] => { valuesOut := some [b.toNat] }
  | _ => errorOutcome .invalidResponseFrame .layoutMismatch

/-- The outcome of RSP_DIAG (R212) on the bytes after the function code. -/
def diagOutcome (rest : Bytes) : Response :=
  match rest with
  | a :: b :: data => { valuesOut := some ((a.toNat * 256 + b.toNat) :: data.map BitVec.toNat) }
  | _ => errorOutcome .invalidResponseFrame .layoutMismatch

/-- The CRC one input bit at a time, least significant bit of the first byte first: a serial register. -/
def serialBit (crc : Word) (bit : Bool) : Word :=
  if crc.getLsbD 0 != bit then (crc >>> 1) ^^^ 0xA001#16 else crc >>> 1

/-- The bits of a byte sequence in the order a serial CRC takes them. -/
def serialBits (bs : Bytes) : List Bool := bs.flatMap fun b => (List.range 8).map b.getLsbD

/-- The response port carries no result field. -/
abbrev noResult (r : Response) : Prop :=
  r.crc = none ∧ r.pdu = none ∧ r.expLen = none ∧ r.ctx = none ∧ r.frame = none ∧ r.addr = none ∧ r.valuesOut = none

/-- The details R282 pairs with each kind. -/
def detailsOf : Status → List Detail
  | .ok => [.none]
  | .unsupportedFunction => [.none]
  | .invalidArgument => [.addrRange, .fieldRange, .valueRange, .byteCountRange, .dataByteRange, .noRequest]
  | .invalidRequestFrame => [.tooShort, .crcMismatch]
  | .invalidResponseFrame =>
    [.noRequest, .tooShort, .addrMismatch, .crcMismatch, .byteCountMismatch, .layoutMismatch, .emptyPdu]
  | .slaveException => [.none]

/-- An outcome R32 and R282 allow: DETAIL belongs to STATUS, EXC_CODE is 0 but for SlaveException, and an error carries no
result field. -/
abbrev legalResponse (r : Response) : Prop :=
  r.detail ∈ detailsOf r.status ∧ (r.status ≠ .slaveException → r.excCode = 0) ∧ (r.status ≠ .ok → noResult r)

/-- The invariant: the response port holds a legal outcome, and an address is recorded only after a command completed
(R32, R33). -/
abbrev Inv (s : State) : Prop := legalResponse s.response ∧ (s.lastValid = true → 0 < s.index)

end Sys2Proof.Safety
end

