-- ==== Sys2Proof/Certificates/Slice0/Obligations.lean ====
section
/-! DEFINITION. The statements for the provers. Every outcome below is written out from the spec's rules; where a clause
rests on a decision the spec marks as its own (D1 to D46 of 92_eei_decisions.md) the docstring names it. -/

open Sys2Proof Sys2Proof.Machine Sys2Proof.Safety

/-! ### Encoding -/

/-- The command record of a well-formed instruction decodes to it (R80, R83, R88; the record is the encoded form by log
entry 3, the OP numbers are D13). -/
def Obligations.DecodeOfEncodedInstruction : Prop :=
  ∀ i : Instr, wellFormed i = true → decode (encode i) = i

/-- Every command record decodes to a well-formed instruction, so no record has two spellings (log entry 3). -/
def Obligations.DecodedCommandIsWellFormed : Prop :=
  ∀ c : Command, wellFormed (decode c) = true

/-- The general ENCODE and DECODE run exactly as the row their record decodes to: the row of the FC operand for ENCODE,
and for DECODE the row of the FC operand or the EXCEPTION row (R83, R88, R90; operands a function does not read change
nothing, D31). -/
def Obligations.GeneralCommandsRunAsTheirRows : Prop :=
  (∀ (fc : Int) (o : EncodeOperands) (s : State), exec (decode (encode (.encode fc o))) s = exec (.encode fc o) s) ∧
  (∀ (fc qty : Int) (data : Bytes) (s : State),
    exec (decode (encode (.decode fc qty data))) s = exec (.decode fc qty data) s)

/-- What ENCODE builds for a request row reads back, byte for byte, as that row with the same operands (R84; the reader of
request PDUs is the model's, log entry 4). -/
def Obligations.RequestPduReadsBack : Prop :=
  ∀ (i : Instr) (s : State), wireWellFormed i = true →
    ∃ t pdu, exec i s = .next t ∧ t.response.pdu = some pdu ∧ decodeRequestPdu pdu = .ok i

/-- Bytes the request reader accepts are exactly what ENCODE builds for the row read: no bit of a request layout is
dropped (R84; log entry 4). -/
def Obligations.ReadRequestPduIsTheOneBuilt : Prop :=
  ∀ (pdu : Bytes) (i : Instr) (s : State), decodeRequestPdu pdu = .ok i →
    wireWellFormed i = true ∧ ∃ t, exec i s = .next t ∧ t.response.pdu = some pdu

/-- A step takes the host's next action: a command runs as its decoded instruction with that action taken from the port,
and so does the record of a well-formed instruction; with no action left the run has ended (R36, R67, R321; log entry 1). -/
def Obligations.StepRunsDecodedInstruction : Prop :=
  (∀ (s : State) (c : Command) (rest : List HostAction), s.port = .command c :: rest →
    step s = exec (decode c) { s with port := rest }) ∧
  (∀ (s : State) (i : Instr) (rest : List HostAction), wellFormed i = true → s.port = .command (encode i) :: rest →
    step s = exec i { s with port := rest }) ∧
  (∀ s : State, s.port = [] → step s = .fault .endOfRun)

/-- A word of the opcode table, issued next, runs as the instruction the table reader gives, from any state (log entries 1
and 5). -/
def Obligations.TableWordRunsNext : Prop :=
  ∀ (nbits w : Nat) (i : Instr) (s : State), decodeTableWord nbits w = some i → step (s.withFetchWord nbits w) = exec i s

/-- Records written out from R80, R83 and R92, and request PDUs written out from R84, decode to their instructions. -/
def Obligations.WrittenOutEncodingsDecode : Prop :=
  decode { op := 0b000, data := [0x01, 0x03] } = .crc16 [0x01, 0x03] ∧
  decode { op := 0b001, fc := 0x03, start := 0, qty := 10 } = .readHoldingRegistersReq 0 10 none ∧
  decode { op := 0b010, fc := 0x01, qty := 19, data := [0x01, 0x03, 0xCD, 0x6B, 0x05] } =
    .readCoilsRsp 19 [0x01, 0x03, 0xCD, 0x6B, 0x05] ∧
  decode { op := 0b010, fc := 0x03, qty := 1, data := [0x90, 0x04] } = .exceptionRsp 0x03 1 0x10 [0x04] ∧
  decode { op := 0b011, slave := 1, data := [0x03] } = .buildRequest [0x03] 1 ∧
  decode { op := 0b100, data := [0x11] } = .parseResponse [0x11] ∧
  decode { op := 0b101, data := [0x11] } = .parseRequest [0x11] ∧
  decode { op := 0b110, data := [0x11] } = .buildResponse [0x11] ∧
  decode { op := 0b111 } = .reservedOp7 ∧
  decodeRequestPdu [0x01, 0x00, 0x13, 0x00, 0x25] = .ok (.readCoilsReq 0x13 37 none) ∧
  decodeRequestPdu [0x0F, 0x00, 0x13, 0x00, 0x0A, 0x02, 0xCD, 0x01] =
    .ok (.writeMultipleCoilsReq 0x13 10 [1, 0, 1, 1, 0, 0, 1, 1, 1, 0] none) ∧
  decodeRequestPdu [0x2B] = .error (.unsupportedFunction 0x2B)

/-! ### CRC -/

/-- CRC16 answers the CRC of its bytes for any length and writes no register; no bytes give the initial value 0xFFFF
(R131; any length, D28). -/
def Obligations.Crc16AnswersTheCrc : Prop :=
  (∀ (data : Bytes) (s : State), Answers (.crc16 data) s { crc := some (crc16 data) }) ∧
  (∀ s : State, Answers (.crc16 []) s { crc := some 0xFFFF#16 })

/-- The byte-at-a-time CRC of R130 equals a serial register fed one bit at a time, least significant bit first, with
polynomial 0xA001 and initial value 0xFFFF (the loop is D2). -/
def Obligations.CrcEqualsSerialRegister : Prop :=
  ∀ bs : Bytes, crc16 bs = (serialBits bs).foldl serialBit 0xFFFF#16

/-- The residue property (R132, derived; trailer order D4): a sequence followed by its own trailer has CRC 0. -/
def Obligations.CrcResidueIsZero : Prop :=
  ∀ bs : Bytes, crc16 (bs ++ [(crc16 bs).extractLsb' 0 8, (crc16 bs).extractLsb' 8 8]) = 0#16

/-! ### Request encoding -/

/-- The descriptor table (R34, R83; function codes other than 0x03 D3, layouts D20 and D21): its eleven entries, each found
by its own function-code byte and by no other integer; the source's read flag is 1 exactly for the READ_BITS, READ_WORDS
and READ_WRITE_WORDS families. -/
def Obligations.DescriptorTableHasElevenFunctions : Prop :=
  descriptorTable.map (fun d => (d.fc.toNat, d.family, d.requestLayout, d.responseLayout)) =
    [(0x01, .readBits, .reqRead, .rspBits), (0x02, .readBits, .reqRead, .rspBits),
     (0x03, .readWords, .reqRead, .rspWords), (0x04, .readWords, .reqRead, .rspWords),
     (0x05, .writeEcho, .reqWsc, .rspEcho), (0x06, .writeEcho, .reqWsr, .rspEcho),
     (0x07, .statusByte, .reqFcOnly, .rspStatus), (0x08, .diag, .reqDiag, .rspDiag),
     (0x0F, .writeEcho, .reqWmc, .rspEcho), (0x10, .writeEcho, .reqWmr, .rspEcho),
     (0x17, .readWriteWords, .reqRwmr, .rspWords)] ∧
  (∀ d ∈ descriptorTable, lookup d.fc.toNat = some d) ∧
  (∀ fc : Int, (lookup fc).isSome = true ↔ fc ∈ supported) ∧
  (∀ f : Family, f.readFlag = true ↔ f = .readBits ∨ f = .readWords ∨ f = .readWriteWords)

/-- ENCODE READ_COILS (R154; function code D3, range checks D19, no quantity limit D37 and D43, EXP_LEN D24 and D25). -/
def Obligations.EncodeReadCoils : Prop :=
  ∀ (o : EncodeOperands) (s : State),
    let r : Response :=
      if outsideWord o.start then errorOutcome .invalidArgument .fieldRange
      else if outsideWord o.qty then errorOutcome .invalidArgument .fieldRange
      else
        { pdu := some (0x01 :: (twoBytes o.start ++ twoBytes o.qty))
          expLen := some (o.lenOvr.getD ((o.qty.toNat + 7) / 8 + 5))
          ctx := some (0x01, BitVec.ofInt 16 o.qty) }
    Answers (.encode 0x01 o) s r ∧ Answers (.readCoilsReq o.start o.qty o.lenOvr) s r

/-- ENCODE READ_DISCRETE_INPUTS (R155; decisions as R154). -/
def Obligations.EncodeReadDiscreteInputs : Prop :=
  ∀ (o : EncodeOperands) (s : State),
    let r : Response :=
      if outsideWord o.start then errorOutcome .invalidArgument .fieldRange
      else if outsideWord o.qty then errorOutcome .invalidArgument .fieldRange
      else
        { pdu := some (0x02 :: (twoBytes o.start ++ twoBytes o.qty))
          expLen := some (o.lenOvr.getD ((o.qty.toNat + 7) / 8 + 5))
          ctx := some (0x02, BitVec.ofInt 16 o.qty) }
    Answers (.encode 0x02 o) s r ∧ Answers (.readDiscreteInputsReq o.start o.qty o.lenOvr) s r

/-- ENCODE READ_HOLDING_REGISTERS (R156; range checks D19, no limit D43, override D25). -/
def Obligations.EncodeReadHoldingRegisters : Prop :=
  ∀ (o : EncodeOperands) (s : State),
    let r : Response :=
      if outsideWord o.start then errorOutcome .invalidArgument .fieldRange
      else if outsideWord o.qty then errorOutcome .invalidArgument .fieldRange
      else
        { pdu := some (0x03 :: (twoBytes o.start ++ twoBytes o.qty))
          expLen := some (o.lenOvr.getD (2 * o.qty.toNat + 5))
          ctx := some (0x03, BitVec.ofInt 16 o.qty) }
    Answers (.encode 0x03 o) s r ∧ Answers (.readHoldingRegistersReq o.start o.qty o.lenOvr) s r

/-- ENCODE READ_INPUT_REGISTERS (R157; decisions as R156, function code D3). -/
def Obligations.EncodeReadInputRegisters : Prop :=
  ∀ (o : EncodeOperands) (s : State),
    let r : Response :=
      if outsideWord o.start then errorOutcome .invalidArgument .fieldRange
      else if outsideWord o.qty then errorOutcome .invalidArgument .fieldRange
      else
        { pdu := some (0x04 :: (twoBytes o.start ++ twoBytes o.qty))
          expLen := some (o.lenOvr.getD (2 * o.qty.toNat + 5))
          ctx := some (0x04, BitVec.ofInt 16 o.qty) }
    Answers (.encode 0x04 o) s r ∧ Answers (.readInputRegistersReq o.start o.qty o.lenOvr) s r

/-- ENCODE WRITE_SINGLE_COIL (R158; function code D3, range check D19, EXP_LEN D24): every nonzero VALUE is FF 00. -/
def Obligations.EncodeWriteSingleCoil : Prop :=
  ∀ (o : EncodeOperands) (s : State),
    let r : Response :=
      if outsideWord o.start then errorOutcome .invalidArgument .fieldRange
      else
        { pdu := some (0x05 :: (twoBytes o.start ++ (if o.value = 0 then [0x00, 0x00] else [0xFF, 0x00])))
          expLen := some (o.lenOvr.getD 8)
          ctx := some (0x05, 0) }
    Answers (.encode 0x05 o) s r ∧ Answers (.writeSingleCoilReq o.start o.value o.lenOvr) s r

/-- ENCODE WRITE_SINGLE_REGISTER (R159; function code D3, value range D16, order D34). -/
def Obligations.EncodeWriteSingleRegister : Prop :=
  ∀ (o : EncodeOperands) (s : State),
    let r : Response :=
      if outsideWord o.start then errorOutcome .invalidArgument .fieldRange
      else if registerValue o.value then
        { pdu := some (0x06 :: (twoBytes o.start ++ twoBytes o.value))
          expLen := some (o.lenOvr.getD 8)
          ctx := some (0x06, 0) }
      else errorOutcome .invalidArgument .valueRange
    Answers (.encode 0x06 o) s r ∧ Answers (.writeSingleRegisterReq o.start o.value o.lenOvr) s r

/-- ENCODE READ_EXCEPTION_STATUS (R160; layout D20): it reads no operand but LEN_OVR. -/
def Obligations.EncodeReadExceptionStatus : Prop :=
  ∀ (o : EncodeOperands) (s : State),
    let r : Response := { pdu := some [0x07], expLen := some (o.lenOvr.getD 5), ctx := some (0x07, 0) }
    Answers (.encode 0x07 o) s r ∧ Answers (.readExceptionStatusReq o.lenOvr) s r

/-- ENCODE DIAGNOSTIC (R161; function code D3, EXP_LEN D21, byte range D19): raw bytes in order. -/
def Obligations.EncodeDiagnostic : Prop :=
  ∀ (o : EncodeOperands) (s : State),
    let r : Response :=
      if outsideWord o.start then errorOutcome .invalidArgument .fieldRange
      else if ∀ v ∈ o.values, 0 ≤ v ∧ v ≤ 255 then
        { pdu := some (0x08 :: (twoBytes o.start ++ o.values.map (BitVec.ofInt 8)))
          expLen := some (o.lenOvr.getD (o.values.length + 6))
          ctx := some (0x08, 0) }
      else errorOutcome .invalidArgument .dataByteRange
    Answers (.encode 0x08 o) s r ∧ Answers (.diagnosticReq o.start o.values o.lenOvr) s r

/-- ENCODE WRITE_MULTIPLE_COILS (R153, R162; refusal D14 and D15, widths D17, byte count D18): with the caller's
precondition, coil `k` is bit `k mod 8` of data byte `k div 8` and the pad bits are 0; without it, no outcome. -/
def Obligations.EncodeWriteMultipleCoils : Prop :=
  ∀ (o : EncodeOperands) (s : State),
    if (o.values.length : Int) = o.qty ∧ ∀ v ∈ o.values, v = 0 ∨ v = 1 then
      ∃ packed : Bytes, packed.length = (o.values.length + 7) / 8 ∧
        (∀ k < 8 * packed.length, (packed.getD (k / 8) 0).getLsbD (k % 8) = decide (o.values.getD k 0 = 1)) ∧
        (let r : Response :=
          if outsideWord o.start then errorOutcome .invalidArgument .fieldRange
          else if outsideWord o.qty then errorOutcome .invalidArgument .fieldRange
          else if 255 < (o.qty + 7) / 8 then errorOutcome .invalidArgument .byteCountRange
          else
            { pdu := some (0x0F :: (twoBytes o.start ++ twoBytes o.qty ++ [BitVec.ofInt 8 ((o.qty + 7) / 8)] ++ packed))
              expLen := some (o.lenOvr.getD 8)
              ctx := some (0x0F, 0) }
        Answers (.encode 0x0F o) s r ∧ Answers (.writeMultipleCoilsReq o.start o.qty o.values o.lenOvr) s r)
    else
      exec (.encode 0x0F o) s = .refused .precondition ∧
        exec (.writeMultipleCoilsReq o.start o.qty o.values o.lenOvr) s = .refused .precondition

/-- ENCODE WRITE_MULTIPLE_REGISTERS (R153, R163; refusal D14, widths D17, byte count D18, values D16). -/
def Obligations.EncodeWriteMultipleRegisters : Prop :=
  ∀ (o : EncodeOperands) (s : State),
    if (o.values.length : Int) = o.qty then
      let r : Response :=
        if outsideWord o.start then errorOutcome .invalidArgument .fieldRange
        else if outsideWord o.qty then errorOutcome .invalidArgument .fieldRange
        else if 255 < 2 * o.qty then errorOutcome .invalidArgument .byteCountRange
        else if ∀ v ∈ o.values, registerValue v then
          { pdu := some
              (0x10 :: (twoBytes o.start ++ twoBytes o.qty ++ [BitVec.ofInt 8 (2 * o.qty)] ++ o.values.flatMap twoBytes))
            expLen := some (o.lenOvr.getD 8)
            ctx := some (0x10, 0) }
        else errorOutcome .invalidArgument .valueRange
      Answers (.encode 0x10 o) s r ∧ Answers (.writeMultipleRegistersReq o.start o.qty o.values o.lenOvr) s r
    else
      exec (.encode 0x10 o) s = .refused .precondition ∧
        exec (.writeMultipleRegistersReq o.start o.qty o.values o.lenOvr) s = .refused .precondition

/-- ENCODE READ_WRITE_MULTIPLE_REGISTERS (R164; write address D23, widths D17, byte count D18, values D16): the write
count is the number of values. -/
def Obligations.EncodeReadWriteMultipleRegisters : Prop :=
  ∀ (o : EncodeOperands) (s : State),
    let n : Int := o.values.length
    let r : Response :=
      if outsideWord o.start then errorOutcome .invalidArgument .fieldRange
      else if outsideWord o.qty then errorOutcome .invalidArgument .fieldRange
      else if outsideWord o.waddr then errorOutcome .invalidArgument .fieldRange
      else if outsideWord n then errorOutcome .invalidArgument .fieldRange
      else if 255 < 2 * n then errorOutcome .invalidArgument .byteCountRange
      else if ∀ v ∈ o.values, registerValue v then
        { pdu := some
            (0x17 :: (twoBytes o.start ++ twoBytes o.qty ++ twoBytes o.waddr ++ twoBytes n ++ [BitVec.ofInt 8 (2 * n)] ++
              o.values.flatMap twoBytes))
          expLen := some (o.lenOvr.getD (2 * o.qty.toNat + 5))
          ctx := some (0x17, BitVec.ofInt 16 o.qty) }
      else errorOutcome .invalidArgument .valueRange
    Answers (.encode 0x17 o) s r ∧
      Answers (.readWriteMultipleRegistersReq o.start o.qty o.waddr o.values o.lenOvr) s r

/-! ### Response decoding -/

/-- A function code absent from the table raises UnsupportedFunction in ENCODE and DECODE, whatever the other operands
(R89, R151, R280; the codes other than 0x03 D3, lookup before every other check D34, no result D45). -/
def Obligations.UnlistedFunctionCodeIsUnsupported : Prop :=
  ∀ fc : Int, fc ∉ supported →
    ∀ (s : State) (o : EncodeOperands) (qty : Int) (data : Bytes) (low : BitVec 7) (rest : Bytes),
      Answers (.encode fc o) s (errorOutcome .unsupportedFunction .none) ∧
      Answers (.decode fc qty data) s (errorOutcome .unsupportedFunction .none) ∧
      Answers (.exceptionRsp fc qty low rest) s (errorOutcome .unsupportedFunction .none)

/-- DECODE READ_COILS (R202, R204, R205; function code D3, short PDUs D27, exact size D29). -/
def Obligations.DecodeReadCoils : Prop :=
  ∀ (qty : Int) (p : Bytes) (s : State),
    let r : Response :=
      if outsideWord qty then errorOutcome .invalidArgument .fieldRange else checkedPdu p (bitsOutcome qty.toNat)
    Answers (.decode 0x01 qty p) s r ∧ Answers (.readCoilsRsp qty p) s r

/-- DECODE READ_DISCRETE_INPUTS (R206; decisions as R205). -/
def Obligations.DecodeReadDiscreteInputs : Prop :=
  ∀ (qty : Int) (p : Bytes) (s : State),
    let r : Response :=
      if outsideWord qty then errorOutcome .invalidArgument .fieldRange else checkedPdu p (bitsOutcome qty.toNat)
    Answers (.decode 0x02 qty p) s r ∧ Answers (.readDiscreteInputsRsp qty p) s r

/-- DECODE READ_HOLDING_REGISTERS (R202, R204, R207; short PDUs D27, exact size D29). -/
def Obligations.DecodeReadHoldingRegisters : Prop :=
  ∀ (qty : Int) (p : Bytes) (s : State),
    let r : Response :=
      if outsideWord qty then errorOutcome .invalidArgument .fieldRange else checkedPdu p (wordsOutcome qty.toNat)
    Answers (.decode 0x03 qty p) s r ∧ Answers (.readHoldingRegistersRsp qty p) s r

/-- DECODE READ_INPUT_REGISTERS (R208; decisions as R207, function code D3). -/
def Obligations.DecodeReadInputRegisters : Prop :=
  ∀ (qty : Int) (p : Bytes) (s : State),
    let r : Response :=
      if outsideWord qty then errorOutcome .invalidArgument .fieldRange else checkedPdu p (wordsOutcome qty.toNat)
    Answers (.decode 0x04 qty p) s r ∧ Answers (.readInputRegistersRsp qty p) s r

/-- DECODE WRITE_SINGLE_COIL and WRITE_SINGLE_REGISTER (R209, R210; function codes D3, no echo comparison D26, unsigned D30):
QTY is ignored. -/
def Obligations.DecodeSingleWrites : Prop :=
  ∀ (qty : Int) (p : Bytes) (s : State),
    (Answers (.decode 0x05 qty p) s (checkedPdu p echoOutcome) ∧
      Answers (.writeSingleCoilRsp p) s (checkedPdu p echoOutcome)) ∧
    (Answers (.decode 0x06 qty p) s (checkedPdu p echoOutcome) ∧
      Answers (.writeSingleRegisterRsp p) s (checkedPdu p echoOutcome))

/-- DECODE READ_EXCEPTION_STATUS (R211; layout D20): the status byte is a plain value. -/
def Obligations.DecodeReadExceptionStatus : Prop :=
  ∀ (qty : Int) (p : Bytes) (s : State),
    Answers (.decode 0x07 qty p) s (checkedPdu p statusOutcome) ∧
      Answers (.readExceptionStatusRsp p) s (checkedPdu p statusOutcome)

/-- DECODE DIAGNOSTIC (R212; layout D21): the sub-function, then the data bytes. -/
def Obligations.DecodeDiagnostic : Prop :=
  ∀ (qty : Int) (p : Bytes) (s : State),
    Answers (.decode 0x08 qty p) s (checkedPdu p diagOutcome) ∧ Answers (.diagnosticRsp p) s (checkedPdu p diagOutcome)

/-- DECODE WRITE_MULTIPLE_COILS and WRITE_MULTIPLE_REGISTERS (R213, R214; decisions as R209). -/
def Obligations.DecodeMultipleWrites : Prop :=
  ∀ (qty : Int) (p : Bytes) (s : State),
    (Answers (.decode 0x0F qty p) s (checkedPdu p echoOutcome) ∧
      Answers (.writeMultipleCoilsRsp p) s (checkedPdu p echoOutcome)) ∧
    (Answers (.decode 0x10 qty p) s (checkedPdu p echoOutcome) ∧
      Answers (.writeMultipleRegistersRsp p) s (checkedPdu p echoOutcome))

/-- DECODE READ_WRITE_MULTIPLE_REGISTERS (R215; decisions as R207, response D23). -/
def Obligations.DecodeReadWriteMultipleRegisters : Prop :=
  ∀ (qty : Int) (p : Bytes) (s : State),
    let r : Response :=
      if outsideWord qty then errorOutcome .invalidArgument .fieldRange else checkedPdu p (wordsOutcome qty.toNat)
    Answers (.decode 0x17 qty p) s r ∧ Answers (.readWriteMultipleRegistersRsp qty p) s r

/-- DECODE returns all of VALUES_OUT or none of it (R201): when no check and no decode rule raises, the whole list the decode
rule gives; when any of them raises, no value at all. -/
def Obligations.NoPartialDecode : Prop :=
  ∀ (fc qty : Int) (p : Bytes) (s : State) (d : Descriptor), lookup fc = some d →
    (∀ vs, checkQuantity d qty = .ok () → checkException p = .ok () →
      decodePayload d.responseLayout p qty.toNat = .ok vs →
      ∃ t, exec (.decode fc qty p) s = .next t ∧ t.response.status = .ok ∧ t.response.valuesOut = some vs) ∧
    (∀ e, checkQuantity d qty = .error e ∨ checkException p = .error e ∨
        decodePayload d.responseLayout p qty.toNat = .error e →
      ∃ t, exec (.decode fc qty p) s = .next t ∧ t.response.status ≠ .ok ∧ t.response.valuesOut = none)

/-- A slave exception response, the echoed function code OR 0x80 and then the code, gives SlaveException with that code,
unchanged for every value, and nothing else of the next state depends on the code: the block gives no code a meaning of
its own (R283). -/
def Obligations.ExceptionCodePassesThrough : Prop :=
  ∀ (fc qty : Int) (s : State), (lookup fc).isSome = true → 0 ≤ qty → qty ≤ 65535 →
    ∃ t : State, t.response.status = .slaveException ∧
      ∀ code : Byte, exec (.decode fc qty [BitVec.ofInt 8 fc ||| 0x80#8, code]) s =
        .next { t with response := { t.response with excCode := code } }

/-- An exception response is reported with the second byte of the PDU as its code, unchanged for every value, whatever
the low bits of the first byte and the bytes after the code (R86, R90, R202, R283; function codes D3, low bits D26, further
bytes D27). -/
def Obligations.SlaveExceptionCarriesTheSecondByte : Prop :=
  ∀ fc ∈ supported, ∀ qty : Int, (fc ∈ countedByQuantity → 0 ≤ qty ∧ qty ≤ 65535) →
    ∀ (low : BitVec 7) (code : Byte) (rest : Bytes) (s : State),
      Answers (.exceptionRsp fc qty low (code :: rest)) s
        { status := .slaveException, detail := .none, excCode := code } ∧
      Answers (.decode fc qty ((1#1 ++ low) :: code :: rest)) s
        { status := .slaveException, detail := .none, excCode := code }

/-- The EXCEPTION row's checks in their order: function code, QTY where the function reads it, a code byte (R202, R284;
order D34, short PDU D27). -/
def Obligations.ExceptionRowChecksInOrder : Prop :=
  ∀ (fc qty : Int) (low : BitVec 7) (rest : Bytes) (s : State),
    Answers (.exceptionRsp fc qty low rest) s
      (if fc ∉ supported then errorOutcome .unsupportedFunction .none
       else if fc ∈ countedByQuantity ∧ outsideWord qty then errorOutcome .invalidArgument .fieldRange
       else
        match rest with
        | [] => errorOutcome .invalidResponseFrame .tooShort
        | code :: _ => slaveOutcome code)

/-- The result of every successful DECODE (R216 a to e, derived): as many values as asked, bits and words in range, a word
being the two bytes of the PDU it stands for. -/
def Obligations.SuccessfulDecodeHasTheRightShape : Prop :=
  ∀ (fc qty : Int) (p : Bytes) (s t : State),
    exec (.decode fc qty p) s = .next t → t.response.status = .ok →
    ∃ vs : List Nat, t.response.valuesOut = some vs ∧
      (fc = 0x01 ∨ fc = 0x02 → (vs.length : Int) = qty ∧ ∀ v ∈ vs, v = 0 ∨ v = 1) ∧
      (fc = 0x03 ∨ fc = 0x04 ∨ fc = 0x17 → (vs.length : Int) = qty ∧ (∀ v ∈ vs, v ≤ 65535) ∧
        ∀ k < vs.length, vs.getD k 0 = (p.getD (2 + 2 * k) 0).toNat * 256 + (p.getD (2 + 2 * k + 1) 0).toNat) ∧
      (fc = 0x05 ∨ fc = 0x06 ∨ fc = 0x0F ∨ fc = 0x10 → vs.length = 2) ∧
      (fc = 0x07 → vs.length = 1) ∧
      (fc = 0x08 → vs.length + 2 = p.length)

/-- Packing any number of coils up to 2040 and decoding them gives the coils back (R216 f, derived). -/
def Obligations.PackedCoilsDecodeBack : Prop :=
  ∀ (bits : List Int) (s : State), bits.length ≤ 2040 → (∀ b ∈ bits, b = 0 ∨ b = 1) →
    Answers (.decode 0x01 bits.length (0x01 :: BitVec.ofNat 8 ((bits.length + 7) / 8) :: packBits bits)) s
      { valuesOut := some (bits.map Int.toNat) }

/-- The bit order of packed coils (R64): coil `k` is bit `k mod 8` of byte `k div 8`, the final byte is zero-padded on
encode, and the pad bits are discarded on decode. -/
def Obligations.PackedCoilBitOrder : Prop :=
  (∀ bits : List Int, (∀ b ∈ bits, b = 0 ∨ b = 1) →
    (packBits bits).length = (bits.length + 7) / 8 ∧
    (∀ k < bits.length, ((packBits bits).getD (k / 8) 0).getLsbD (k % 8) = decide (bits.getD k 0 = 1)) ∧
    (∀ k, bits.length ≤ k → ((packBits bits).getD (k / 8) 0).getLsbD (k % 8) = false)) ∧
  (∀ (q : Nat) (data : Bytes),
    (unpackBits q data).length = q ∧
    ∀ k < q, (unpackBits q data).getD k 0 = ((data.getD (k / 8) 0).getLsbD (k % 8)).toNat)

/-! ### Framer -/

/-- BUILD_REQUEST (R250; trailer D4, any PDU D28, broadcast D44): address, PDU, CRC low byte, CRC high byte, and the
address recorded; an address outside 0 to 255 records nothing. -/
def Obligations.BuildRequestFramesAndRecords : Prop :=
  ∀ (data : Bytes) (slave : Int) (s : State),
    let a : Byte := BitVec.ofInt 8 slave
    let c : Word := crc16 (a :: data)
    if 0 ≤ slave ∧ slave ≤ 255 then
      Records (.buildRequest data slave) s a
        { frame := some (a :: (data ++ [BitVec.ofNat 8 c.toNat, BitVec.ofNat 8 (c.toNat / 256)])) }
    else Answers (.buildRequest data slave) s (errorOutcome .invalidArgument .addrRange)

/-- PARSE_RESPONSE (R251; NO_REQUEST D8, order D33, trailer D4): the checks in their order, then the PDU between the
address and the trailer. -/
def Obligations.ParseResponseChecksInOrder : Prop :=
  ∀ (data : Bytes) (s : State),
    let c : Word := crc16 (data.take (data.length - 2))
    Answers (.parseResponse data) s
      (if data.length < 3 then errorOutcome .invalidResponseFrame .tooShort
       else if s.lastValid = false then errorOutcome .invalidResponseFrame .noRequest
       else if data.getD 0 0 ≠ s.lastAddr then errorOutcome .invalidResponseFrame .addrMismatch
       else if data.drop (data.length - 2) ≠ [BitVec.ofNat 8 c.toNat, BitVec.ofNat 8 (c.toNat / 256)] then
        errorOutcome .invalidResponseFrame .crcMismatch
       else { pdu := some data.tail.dropLast.dropLast })

/-- PARSE_REQUEST (R252; no address check D32, recording D6, trailer D4): on success the address is returned and
recorded; on failure nothing is recorded. -/
def Obligations.ParseRequestChecksAndRecords : Prop :=
  ∀ (data : Bytes) (s : State),
    let c : Word := crc16 (data.take (data.length - 2))
    if data.length < 3 then Answers (.parseRequest data) s (errorOutcome .invalidRequestFrame .tooShort)
    else if data.drop (data.length - 2) ≠ [BitVec.ofNat 8 c.toNat, BitVec.ofNat 8 (c.toNat / 256)] then
      Answers (.parseRequest data) s (errorOutcome .invalidRequestFrame .crcMismatch)
    else
      Records (.parseRequest data) s (data.getD 0 0)
        { addr := some (data.getD 0 0), pdu := some data.tail.dropLast.dropLast }

/-- BUILD_RESPONSE (R253; the recorded address D6, NO_REQUEST D9, trailer D4). -/
def Obligations.BuildResponseUsesRecordedAddress : Prop :=
  ∀ (data : Bytes) (s : State),
    let c : Word := crc16 (s.lastAddr :: data)
    Answers (.buildResponse data) s
      (if s.lastValid = false then errorOutcome .invalidArgument .noRequest
       else
        { frame := some (s.lastAddr :: (data ++ [BitVec.ofNat 8 c.toNat, BitVec.ofNat 8 (c.toNat / 256)])) })

/-- The round trip (R255, derived): a frame BUILD_REQUEST returns is accepted by PARSE_RESPONSE in every state that still
holds the recorded address, and by PARSE_REQUEST in every state, and gives the PDU back. -/
def Obligations.BuiltFrameParsesBack : Prop :=
  ∀ (pdu : Bytes) (a : Byte) (s : State),
    ∃ (t : State) (frame : Bytes), exec (.buildRequest pdu a.toNat) s = .next t ∧ t.response.frame = some frame ∧
      (∀ u : State, u.lastAddr = t.lastAddr → u.lastValid = t.lastValid →
        Answers (.parseResponse frame) u { pdu := some pdu }) ∧
      (∀ u : State, Records (.parseRequest frame) u a { addr := some a, pdu := some pdu })

/-- Any fixed trailer order gives the round trip (R255, derived), so the round trip does not show the order (R315). -/
def Obligations.EitherTrailerOrderIsAccepted : Prop :=
  ∀ (order : CrcByteOrder) (a : Byte) (pdu : Bytes),
    crcOk order (buildFrame order a pdu) = true ∧ framePdu (buildFrame order a pdu) = pdu

/-- A response is checked against the address of the newest successful request, not of its own (R313; one register for both
roles D6, trailer order D4): after two successful requests for different addresses, each a BUILD_REQUEST or a
PARSE_REQUEST, a good response from the first address is an ADDR_MISMATCH and one from the second is accepted; a failed
request in between changes nothing. -/
def Obligations.ResponseIsCheckedAgainstNewestRequest : Prop :=
  ∀ (a b : Byte) (i j : Instr) (s t u : State), a ≠ b → RequestSucceeds i a s t → RequestSucceeds j b t u →
    ∀ (v : State), (v = u ∨ ∃ k, RequestFails k u v) → ∀ pdu : Bytes,
      Answers (.parseResponse (buildFrame .lowFirst a pdu)) v (errorOutcome .invalidResponseFrame .addrMismatch) ∧
      Answers (.parseResponse (buildFrame .lowFirst b pdu)) v { pdu := some pdu }

/-! ### The whole machine -/

/-- The reserved command has no outcome, whatever its operands are (R80, R286; D13; operands a command does not name are
ignored, R31, D31). -/
def Obligations.ReservedOpIsRefused : Prop :=
  ∀ (c : Command) (s : State), c.op = 7 → decode c = .reservedOp7 ∧ exec (decode c) s = .refused .reservedOp

/-- No instruction faults, and the refused ones are exactly the reserved command and the multiple writes that break the
caller's precondition (R286; D13, D14, D15). -/
def Obligations.RefusedInstructionsAreExactly : Prop :=
  ∀ (i : Instr) (s : State),
    (∀ f : Fault, exec i s ≠ .fault f) ∧
    (∀ r : Refusal, exec i s = .refused r ↔
      (r = .reservedOp ∧ i = .reservedOp7) ∨
      (r = .precondition ∧ ∃ (o : EncodeOperands),
        ((i = .encode 0x0F o ∨ i = .writeMultipleCoilsReq o.start o.qty o.values o.lenOvr) ∧
          ((o.values.length : Int) ≠ o.qty ∨ ∃ v ∈ o.values, v ≠ 0 ∧ v ≠ 1)) ∨
        ((i = .encode 0x10 o ∨ i = .writeMultipleRegistersReq o.start o.qty o.values o.lenOvr) ∧
          (o.values.length : Int) ≠ o.qty)))

/-- The frame of every instruction: a completed command counts one, takes nothing from the port, and leaves LAST_ADDR and
LAST_VALID alone unless it is a BUILD_REQUEST or PARSE_REQUEST with STATUS OK, which sets LAST_VALID (R33, R36, R38; D6). -/
def Obligations.OnlyRequestsWriteTheRegister : Prop :=
  ∀ (i : Instr) (s t : State), exec i s = .next t →
    t.index = s.index + 1 ∧ t.port = s.port ∧
    ((t.lastAddr = s.lastAddr ∧ t.lastValid = s.lastValid) ∨
      (t.lastValid = true ∧ t.response.status = .ok ∧
        ((∃ data slave, i = .buildRequest data slave ∧ (t.lastAddr.toNat : Int) = slave) ∨
          (∃ data, i = .parseRequest data ∧ t.response.addr = some t.lastAddr))))

/-- An error completion (R280; D10, D45): the register keeps its value, no result field is defined, and what any next
command answers is what it would have answered without the failed one. -/
def Obligations.FailedCommandLeavesNoTrace : Prop :=
  ∀ (i : Instr) (s t : State), exec i s = .next t → t.response.status ≠ .ok →
    t.lastAddr = s.lastAddr ∧ t.lastValid = s.lastValid ∧ noResult t.response ∧
    ∀ (j : Instr) (u : State), exec j t = .next u →
      ∃ v : State, exec j s = .next v ∧ v.response = u.response ∧ v.lastAddr = u.lastAddr ∧ v.lastValid = u.lastValid

/-- The register is the only state a command reads, and only PARSE_RESPONSE and BUILD_RESPONSE read it: the other
instructions answer the same from any two states (R38, derived). -/
def Obligations.OutcomeDependsOnlyOnTheRegister : Prop :=
  ∀ (i : Instr) (s u t : State), exec i s = .next t →
    ((s.lastAddr = u.lastAddr ∧ s.lastValid = u.lastValid) ∨
      ((∀ data, i ≠ .parseResponse data) ∧ ∀ data, i ≠ .buildResponse data)) →
    ∃ v : State, exec i u = .next v ∧ v.response = t.response

/-- Every step keeps the invariant: the outcome is one R32 and R282 allow, and an address is recorded only after a
command completed (R33). -/
def Obligations.StepKeepsTheInvariant : Prop :=
  ∀ s t : State, Inv s → step s = .next t → Inv t

/-- The invariant holds after reset. -/
def Obligations.ResetMeetsTheInvariant : Prop :=
  Inv State.reset

/-- Reset (R33, R310, R311; D7, D46): LAST_VALID 0 and command index 0, also when the host resets between commands, and
what the host does next still follows (log entry 6); no other step clears LAST_VALID. -/
def Obligations.ResetClearsTheBlock : Prop :=
  State.reset.lastValid = false ∧ State.reset.index = 0 ∧
  (∀ (s : State) (rest : List HostAction), s.port = .reset :: rest →
    ∃ t : State, step s = .next t ∧ t.lastValid = false ∧ t.index = 0 ∧ t.port = rest) ∧
  (∀ s t : State, step s = .next t → s.lastValid = true → t.lastValid = false → s.port.head? = some .reset)

/-- Straight after reset nothing has been recorded, and LAST_VALID becomes 1 exactly when some BUILD_REQUEST or
PARSE_REQUEST of the run has succeeded; until then PARSE_RESPONSE of a frame and BUILD_RESPONSE answer NO_REQUEST (R33,
R312, derived; D7, D8, D9). -/
def Obligations.AddressIsRecordedOnceARequestSucceeds : Prop :=
  (∀ (cs : List Command) (o : Observation), observe cs State.reset = .next o →
    (o.lastValid = true ↔ ∃ cr ∈ cs.zip o.outcomes, (cr.1.op = 3 ∨ cr.1.op = 5) ∧ cr.2.status = .ok)) ∧
  (∀ (s : State) (data : Bytes), s.lastValid = false →
    Answers (.buildResponse data) s (errorOutcome .invalidArgument .noRequest) ∧
    (3 ≤ data.length → Answers (.parseResponse data) s (errorOutcome .invalidResponseFrame .noRequest)))

/-- The observation of a run (R321; D38): one outcome for each command, then the final register, and the run is refused
exactly when one of its commands is refused where it comes. The run of no command observes the register as it stands. -/
def Obligations.ObservationHasOneOutcomePerCommand : Prop :=
  (∀ s : State, observe [] s = .next { outcomes := [], lastAddr := s.lastAddr, lastValid := s.lastValid }) ∧
  ∀ (c : Command) (cs : List Command) (s : State),
    (∀ o, observe (c :: cs) s = .next o → o.outcomes.length = cs.length + 1) ∧
    (∀ r, observe (c :: cs) s = .refused r ↔
      issue c s = .refused r ∨ ∃ t, issue c s = .next t ∧ observe cs t = .refused r) ∧
    (∀ t o, issue c s = .next t → observe cs t = .next o →
      observe (c :: cs) s = .next { o with outcomes := t.response :: o.outcomes })

/-- Instances do not interact (R39; D35, log entry 8): a step of one leaves every other as it was and is that instance's
own step. -/
def Obligations.InstancesAreIndependent : Prop :=
  ∀ (k : Nat) (y z : System), System.stepAt k y = some (.next z) →
    z.instances.length = y.instances.length ∧
    (∀ j, j ≠ k → z.instances[j]? = y.instances[j]?) ∧
    ∃ s t, y.instances[k]? = some s ∧ step s = .next t ∧ z.instances[k]? = some t

/-- The two pseudo-commands (R93; D42), for every function: REQUEST is ENCODE and, if its STATUS is OK, BUILD_REQUEST of its
PDU; RESPONSE is PARSE_RESPONSE and, if its STATUS is OK, DECODE of its PDU in the request's context; a first command that
fails ends either one with that command's error, one command counted. On a whole transaction: REQUEST of a read of holding
registers frames the PDU and records the slave, RESPONSE of a frame from that slave decodes its words, RESPONSE of a frame
from another slave is its ADDR_MISMATCH, and an ENCODE error ends REQUEST without a BUILD_REQUEST. -/
def Obligations.TransactionMacrosPairTheCommands : Prop :=
  (∀ (slave fc : Int) (o : EncodeOperands) (s : State),
    (∀ r, exec (.encode fc o) s = .refused r → requestMacro slave fc o s = .refused r) ∧
    ∀ t, exec (.encode fc o) s = .next t →
      (t.response.status ≠ .ok → requestMacro slave fc o s = .next t ∧ t.index = s.index + 1) ∧
      (t.response.status = .ok → ∃ pdu, t.response.pdu = some pdu ∧
        requestMacro slave fc o s = exec (.buildRequest pdu slave) t)) ∧
  (∀ (ctx : Byte × Word) (frame : Bytes) (s t : State), exec (.parseResponse frame) s = .next t →
    (t.response.status ≠ .ok → responseMacro ctx frame s = .next t ∧ t.index = s.index + 1) ∧
    (t.response.status = .ok → ∃ pdu, t.response.pdu = some pdu ∧
      responseMacro ctx frame s = exec (.decode ctx.1.toNat ctx.2.toNat pdu) t)) ∧
  ∀ (a : Byte) (start qty : Nat) (s : State), start ≤ 65535 → qty ≤ 127 →
    (∃ t, requestMacro a.toNat 0x03 { start := start, qty := qty } s = .next t ∧
      t.response.frame = some (buildFrame .lowFirst a (0x03 :: (twoBytes start ++ twoBytes qty))) ∧
      t.lastAddr = a ∧ t.lastValid = true ∧ t.index = s.index + 2 ∧
      ∀ data : Bytes, data.length = 2 * qty →
        ∃ u, responseMacro (0x03, BitVec.ofNat 16 qty)
            (buildFrame .lowFirst a (0x03 :: BitVec.ofNat 8 (2 * qty) :: data)) t = .next u ∧
          u.response = wordsOutcome qty (BitVec.ofNat 8 (2 * qty) :: data) ∧ u.response.status = .ok ∧
          u.index = t.index + 2 ∧
          ∀ b : Byte, b ≠ a → ∃ u, responseMacro (0x03, BitVec.ofNat 16 qty)
              (buildFrame .lowFirst b (0x03 :: BitVec.ofNat 8 (2 * qty) :: data)) t = .next u ∧
            u.response = errorOutcome .invalidResponseFrame .addrMismatch ∧ u.index = t.index + 1) ∧
    (∃ t, requestMacro a.toNat 0x03 { start := start, qty := 65536 } s = .next t ∧
      t.response = errorOutcome .invalidArgument .fieldRange ∧ t.lastAddr = s.lastAddr ∧ t.lastValid = s.lastValid ∧
      t.index = s.index + 1)

/-- The numbers of STATUS and DETAIL (R281, R282; D11, D12) tell the kinds and the causes apart. -/
def Obligations.StatusAndDetailNumbers : Prop :=
  [Status.ok, .unsupportedFunction, .invalidArgument, .invalidRequestFrame, .invalidResponseFrame,
    .slaveException].map Status.code = [0, 1, 2, 3, 4, 5] ∧
  [Detail.none, .addrRange, .fieldRange, .valueRange, .byteCountRange, .dataByteRange, .noRequest, .tooShort,
    .addrMismatch, .crcMismatch, .byteCountMismatch, .layoutMismatch, .emptyPdu].map Detail.code =
      [0, 1, 2, 3, 4, 5, 6, 7, 8, 9, 10, 11, 12] ∧
  (∀ a b : Status, a.code = b.code → a = b) ∧ (∀ a b : Detail, a.code = b.code → a = b)
end

