-- ==== Sys2Proof/Laws/Operands.lean ====
section
/-! SUPPORT. What each field assembler and the descriptor lookup can answer. -/

namespace Sys2Proof.Machine

theorem field16_ok {v : Int} (h : 0 ≤ v ∧ v ≤ 65535) : field16 v = .ok (be16 (BitVec.ofInt 16 v)) := if_pos h

theorem field16_error {v : Int} (h : ¬(0 ≤ v ∧ v ≤ 65535)) : field16 v = .error (.invalidArgument .fieldRange) := if_neg h

theorem val16_ok {v : Int} (h : -32768 ≤ v ∧ v ≤ 65535) : val16 v = .ok (be16 (BitVec.ofInt 16 (v % 65536))) := if_pos h

theorem val16_error {v : Int} (h : ¬(-32768 ≤ v ∧ v ≤ 65535)) : val16 v = .error (.invalidArgument .valueRange) := if_neg h

theorem byte8_ok {v : Int} (h : 0 ≤ v ∧ v ≤ 255) : byte8 v = .ok [BitVec.ofInt 8 v] := if_pos h

theorem byte8_error {v : Int} (h : ¬(0 ≤ v ∧ v ≤ 255)) : byte8 v = .error (.invalidArgument .dataByteRange) := if_neg h

theorem bc8_ok {n : Nat} (h : n ≤ 255) : bc8 n = .ok [BitVec.ofNat 8 n] := if_pos h

theorem bc8_error {n : Nat} (h : ¬n ≤ 255) : bc8 n = .error (.invalidArgument .byteCountRange) := if_neg h

theorem addr8_ok {a : Int} (h : 0 ≤ a ∧ a ≤ 255) : addr8 a = .ok (BitVec.ofInt 8 a) := if_pos h

theorem addr8_error {a : Int} (h : ¬(0 ≤ a ∧ a ≤ 255)) : addr8 a = .error (.invalidArgument .addrRange) := if_neg h

@[simp] theorem be16_length (w : Word) : (be16 w).length = 2 := rfl

@[simp] theorem assembleEach_nil (field : Int → Except Error Bytes) : assembleEach field [] = .ok [] := rfl

/-- A list all of whose elements fit is assembled element by element. -/
theorem assembleEach_ok {field : Int → Except Error Bytes} {bytes : Int → Bytes} {vs : List Int}
    (h : ∀ v ∈ vs, field v = .ok (bytes v)) : assembleEach field vs = .ok (vs.flatMap bytes) := by
  induction vs with
  | nil => rfl
  | cons v vs ih =>
    have hv := h v (by simp)
    have hvs := ih fun x hx => h x (by simp [hx])
    simp only [assembleEach, hv, hvs, List.flatMap_cons]
    rfl

/-- A list with an element that does not fit raises that element's error, when only one error is possible. -/
theorem assembleEach_error {field : Int → Except Error Bytes} {e : Error} {vs : List Int}
    (hf : ∀ v, (∃ x, field v = .ok x) ∨ field v = .error e) (h : ∃ v ∈ vs, field v = .error e) :
    assembleEach field vs = .error e := by
  induction vs with
  | nil => simp at h
  | cons v vs ih =>
    rcases hf v with ⟨x, hx⟩ | hx
    · obtain ⟨w, hw, he⟩ := h
      rcases List.mem_cons.mp hw with rfl | hw
      · simp [hx] at he
      · simp only [assembleEach, hx, ih ⟨w, hw, he⟩]
        rfl
    · simp only [assembleEach, hx]
      rfl

@[simp] theorem packBits_length (bits : List Int) : (packBits bits).length = ceil8 bits.length := by
  simp [packBits]

@[simp] theorem unpackBits_length (q : Nat) (d : Bytes) : (unpackBits q d).length = q := by simp [unpackBits]

@[simp] theorem unpackWords_length (q : Nat) (d : Bytes) : (unpackWords q d).length = q := by simp [unpackWords]

@[simp] theorem lookup_0x01 : lookup 0x01 = some readCoils := by decide
@[simp] theorem lookup_0x02 : lookup 0x02 = some readDiscreteInputs := by decide
@[simp] theorem lookup_0x03 : lookup 0x03 = some readHoldingRegisters := by decide
@[simp] theorem lookup_0x04 : lookup 0x04 = some readInputRegisters := by decide
@[simp] theorem lookup_0x05 : lookup 0x05 = some writeSingleCoil := by decide
@[simp] theorem lookup_0x06 : lookup 0x06 = some writeSingleRegister := by decide
@[simp] theorem lookup_0x07 : lookup 0x07 = some readExceptionStatus := by decide
@[simp] theorem lookup_0x08 : lookup 0x08 = some diagnostic := by decide
@[simp] theorem lookup_0x0F : lookup 0x0F = some writeMultipleCoils := by decide
@[simp] theorem lookup_0x10 : lookup 0x10 = some writeMultipleRegisters := by decide
@[simp] theorem lookup_0x17 : lookup 0x17 = some readWriteMultipleRegisters := by decide

/-- A lookup that fails excludes the eleven function codes, and one that succeeds gives the descriptor of one of them. -/
theorem lookup_cases (fc : Int) :
    (lookup fc = none ∧ fc ≠ 0x01 ∧ fc ≠ 0x02 ∧ fc ≠ 0x03 ∧ fc ≠ 0x04 ∧ fc ≠ 0x05 ∧ fc ≠ 0x06 ∧ fc ≠ 0x07 ∧ fc ≠ 0x08 ∧
      fc ≠ 0x0F ∧ fc ≠ 0x10 ∧ fc ≠ 0x17) ∨
    fc = 0x01 ∨ fc = 0x02 ∨ fc = 0x03 ∨ fc = 0x04 ∨ fc = 0x05 ∨ fc = 0x06 ∨ fc = 0x07 ∨ fc = 0x08 ∨ fc = 0x0F ∨
    fc = 0x10 ∨ fc = 0x17 := by
  by_cases h : fc = 0x01 ∨ fc = 0x02 ∨ fc = 0x03 ∨ fc = 0x04 ∨ fc = 0x05 ∨ fc = 0x06 ∨ fc = 0x07 ∨ fc = 0x08 ∨
      fc = 0x0F ∨ fc = 0x10 ∨ fc = 0x17
  · exact .inr h
  · simp only [not_or] at h
    refine .inl ⟨?_, h⟩
    simp only [lookup, List.find?_eq_none, beq_iff_eq, descriptorTable, List.mem_cons, List.not_mem_nil, or_false]
    rintro d (rfl | rfl | rfl | rfl | rfl | rfl | rfl | rfl | rfl | rfl | rfl) hd <;>
      simp [readCoils, readDiscreteInputs, readHoldingRegisters, readInputRegisters, writeSingleCoil,
        writeSingleRegister, readExceptionStatus, diagnostic, writeMultipleCoils, writeMultipleRegisters,
        readWriteMultipleRegisters] at hd <;> omega

end Sys2Proof.Machine
end

