-- ==== Sys2Proof/Laws/Assembly.lean ====
section
/-! SUPPORT. The field assemblers, the bit reads and the CRC trailer in the plain arithmetic that the statements use. -/

namespace Sys2Proof.Machine

open Safety

theorem be16_ofInt_eq_twoBytes (v : Int) : be16 (BitVec.ofInt 16 v) = twoBytes v := by
  simp only [be16, twoBytes, List.cons.injEq, and_true]
  constructor
  · apply BitVec.eq_of_toNat_eq
    simp [BitVec.toNat_ofInt, Nat.shiftRight_eq_div_pow]
    omega
  · apply BitVec.eq_of_toNat_eq
    simp [BitVec.toNat_ofInt]
    omega

theorem be16_mod_eq_twoBytes (v : Int) : be16 (BitVec.ofInt 16 (v % 65536)) = twoBytes v := by
  rw [← be16_ofInt_eq_twoBytes]
  congr 1
  apply BitVec.eq_of_toNat_eq
  simp [BitVec.toNat_ofInt]

theorem field16_eq (v : Int) :
    field16 v = if outsideWord v then .error (.invalidArgument .fieldRange) else .ok (twoBytes v) := by
  rw [← be16_ofInt_eq_twoBytes]
  by_cases h : 0 ≤ v ∧ v ≤ 65535
  · rw [field16_ok h, if_neg (by unfold outsideWord; omega)]
  · rw [field16_error h, if_pos (by unfold outsideWord; omega)]

theorem val16_eq (v : Int) :
    val16 v = if registerValue v then .ok (twoBytes v) else .error (.invalidArgument .valueRange) := by
  rw [← be16_mod_eq_twoBytes]
  rfl

theorem coil16_eq (v : Int) : coil16 v = if v = 0 then [0x00, 0x00] else [0xFF, 0x00] := by
  unfold coil16
  split <;> rfl

theorem bc8_eq (n : Nat) :
    bc8 n = if 255 < (n : Int) then .error (.invalidArgument .byteCountRange) else .ok [BitVec.ofInt 8 n] := by
  by_cases h : n ≤ 255
  · rw [bc8_ok h, if_neg (by omega)]
    simp
  · rw [bc8_error h, if_pos (by omega)]

/-- A list is assembled element by element, or the one error its assembler can raise is raised. -/
theorem assembleEach_eq {field : Int → Except Error Bytes} {bytes : Int → Bytes} {fits : Int → Prop} [DecidablePred fits]
    {e : Error} (hf : ∀ v, field v = if fits v then .ok (bytes v) else .error e) (vs : List Int) :
    assembleEach field vs = if ∀ v ∈ vs, fits v then .ok (vs.flatMap bytes) else .error e := by
  split
  · rename_i h
    exact assembleEach_ok fun v hv => by rw [hf, if_pos (h v hv)]
  · rename_i h
    push Not at h
    obtain ⟨v, hv, hn⟩ := h
    refine assembleEach_error (fun v => ?_) ⟨v, hv, by rw [hf, if_neg hn]⟩
    rw [hf]
    by_cases h : fits v <;> simp [h]

theorem assembleEach_val16 (vs : List Int) :
    assembleEach val16 vs =
      if ∀ v ∈ vs, registerValue v then .ok (vs.flatMap twoBytes) else .error (.invalidArgument .valueRange) :=
  assembleEach_eq val16_eq vs

theorem assembleEach_byte8 (vs : List Int) :
    assembleEach byte8 vs =
      if ∀ v ∈ vs, 0 ≤ v ∧ v ≤ 255 then .ok (vs.map (BitVec.ofInt 8))
      else .error (.invalidArgument .dataByteRange) := by
  rw [List.map_eq_flatMap]
  exact assembleEach_eq (fun _ => rfl) vs

/-- R64's bit of packed data as a test of one bit. -/
theorem bitAt_eq (d : Bytes) (k : Nat) : bitAt d k = ((d.getD (k / 8) 0).getLsbD (k % 8)).toNat := by
  unfold bitAt byteAt
  generalize d.getD (k / 8) 0 = b
  have : k % 8 < 8 := Nat.mod_lt _ (by omega)
  generalize k % 8 = m at *
  interval_cases m <;> revert b <;> decide

/-- The bits of one packed byte. -/
theorem packByte_getLsbD (bits : List Int) (j m : Nat) (hm : m < 8) :
    (packByte bits j).getLsbD m = !decide (bits.getD (8 * j + m) 0 = 0) := by
  suffices h : ∀ n, ((List.range n).foldl
      (fun d m => if bits.getD (8 * j + m) 0 = 0 then d else d ||| (1#8 <<< m)) 0#8).getLsbD m =
        (decide (m < n) && !decide (bits.getD (8 * j + m) 0 = 0)) by
    rw [packByte, h]
    simp [hm]
  intro n
  induction n with
  | zero => simp
  | succ n ih =>
    rw [List.range_succ, List.foldl_append, List.foldl_cons, List.foldl_nil]
    have hbit : (1#8 <<< n).getLsbD m = decide (m = n) := by
      rw [BitVec.getLsbD_shiftLeft, BitVec.getLsbD_one]
      by_cases h : m = n
      · simp [h, show n < 8 by omega]
      · simp only [h, decide_false]
        by_cases hle : m < n
        · simp [hle]
        · simp [show m - n ≠ 0 by omega]
    split
    · rename_i h0
      rw [ih]
      by_cases h : m = n
      · subst h
        rw [h0]
        simp
      · simp [show (m < n + 1) = (m < n) from propext (by omega)]
    · rename_i h0
      rw [BitVec.getLsbD_or, ih, hbit]
      by_cases h : m = n
      · subst h
        rw [decide_eq_false h0]
        simp
      · simp [h, show (m < n + 1) = (m < n) from propext (by omega)]

/-- A CRC trailer, low byte first, by division (R63). -/
theorem crcTrailer_lowFirst (c : Word) :
    crcTrailer .lowFirst c = [BitVec.ofNat 8 c.toNat, BitVec.ofNat 8 (c.toNat / 256)] := by
  simp only [crcTrailer, List.cons.injEq, and_true]
  constructor
  · apply BitVec.eq_of_toNat_eq
    simp
  · apply BitVec.eq_of_toNat_eq
    simp [Nat.shiftRight_eq_div_pow]

@[simp] theorem crcTrailer_length (order : CrcByteOrder) (c : Word) : (crcTrailer order c).length = 2 := by
  cases order <;> rfl

@[simp] theorem buildFrame_length (order : CrcByteOrder) (a : Byte) (pdu : Bytes) :
    (buildFrame order a pdu).length = pdu.length + 3 := by
  simp [buildFrame]

/-- One shift of the CRC register splits over the exclusive or of an input (R130). -/
theorem crcShift_xor (c x : Word) : crcShift (c ^^^ x) = serialBit c (x.getLsbD 0) ^^^ (x >>> 1) := by
  unfold crcShift serialBit
  simp only [BitVec.getLsbD_xor, config]
  cases h1 : c.getLsbD 0 <;> cases h2 : x.getLsbD 0 <;>
    simp [BitVec.ushiftRight_xor_distrib] <;> ac_rfl

@[simp] theorem crcShifts_zero_register (n : Nat) : crcShifts n 0 = 0 := by
  induction n with
  | zero => rfl
  | succ n ih => rw [crcShifts, show crcShift 0 = 0 from rfl, ih]

end Sys2Proof.Machine
end

