-- ==== Sys2Proof/Laws/State.lean ====
section
/-! SUPPORT. One lemma for each field of each update of State, so that no proof unfolds a record update. -/

namespace Sys2Proof.Machine

variable (r : Response) (e : Error) (a : Byte) (s : State)

@[simp] theorem complete_lastAddr : (complete r s).lastAddr = s.lastAddr := rfl
@[simp] theorem complete_lastValid : (complete r s).lastValid = s.lastValid := rfl
@[simp] theorem complete_response : (complete r s).response = r := rfl
@[simp] theorem complete_index : (complete r s).index = s.index + 1 := rfl
@[simp] theorem complete_port : (complete r s).port = s.port := rfl

@[simp] theorem raiseError_lastAddr : (raiseError e s).lastAddr = s.lastAddr := rfl
@[simp] theorem raiseError_lastValid : (raiseError e s).lastValid = s.lastValid := rfl
@[simp] theorem raiseError_response : (raiseError e s).response = errorResponse e := rfl
@[simp] theorem raiseError_index : (raiseError e s).index = s.index + 1 := rfl
@[simp] theorem raiseError_port : (raiseError e s).port = s.port := rfl

@[simp] theorem recordAddress_lastAddr : (recordAddress a s).lastAddr = a := rfl
@[simp] theorem recordAddress_lastValid : (recordAddress a s).lastValid = true := rfl
@[simp] theorem recordAddress_response : (recordAddress a s).response = s.response := rfl
@[simp] theorem recordAddress_index : (recordAddress a s).index = s.index := rfl
@[simp] theorem recordAddress_port : (recordAddress a s).port = s.port := rfl

@[simp] theorem errorResponse_status : (errorResponse e).status = e.status := rfl
@[simp] theorem errorResponse_detail : (errorResponse e).detail = e.detail := rfl
@[simp] theorem errorResponse_excCode : (errorResponse e).excCode = e.excCode := rfl

/-- No error has STATUS OK (R281). -/
@[simp] theorem error_status_ne_ok : e.status ≠ .ok := by cases e <;> simp [Error.status]

end Sys2Proof.Machine
end

