-- ==== Sys2Proof/Laws/Ops.lean ====
section
/-! SUPPORT. Everything a shared operation, an instruction and a step can do, said once; later proofs cite these instead of
unfolding. -/

namespace Sys2Proof.Machine

@[simp] theorem finish_ok (r : Response) (s : State) : finish (.ok r) s = .next (complete r s) := rfl

@[simp] theorem finish_error (e : Error) (s : State) : finish (.error e) s = .next (raiseError e s) := rfl

/-- A command that writes no register always completes, with an outcome that depends on nothing but its result. -/
theorem finish_completes (r : Except Error Response) : ∃ out, ∀ s, finish r s = .next (complete out s) := by
  cases r with
  | ok out => exact ⟨out, fun _ => rfl⟩
  | error e => exact ⟨errorResponse e, fun _ => rfl⟩

/-- ENCODE of a listed function completes with an outcome of its operands alone, or is refused by the precondition. -/
theorem runEncode_cases (d : Descriptor) (o : EncodeOperands) :
    (preconditionHolds d o = true ∧ ∃ out, ∀ s, runEncode d o s = .next (complete out s)) ∨
    (preconditionHolds d o = false ∧ ∀ s, runEncode d o s = .refused .precondition) := by
  cases h : preconditionHolds d o with
  | false => exact .inr ⟨rfl, fun s => by simp [runEncode, h, refuse]⟩
  | true =>
    obtain ⟨out, hout⟩ := finish_completes (encodeResults d o)
    exact .inl ⟨rfl, out, fun s => by simp [runEncode, h, hout]⟩

/-- DECODE of a listed function completes with an outcome of its operands alone. -/
theorem runDecode_completes (d : Descriptor) (qty : Int) (p : Bytes) :
    ∃ out, ∀ s, runDecode d qty p s = .next (complete out s) :=
  finish_completes (decodeResults d qty p)

/-- Any instruction: it completes and writes no register, or it is a request that records its address, or it is refused;
it never faults. -/
theorem exec_cases (i : Instr) (s : State) :
    (∃ out, exec i s = .next (complete out s)) ∨
    (∃ a out, out.status = .ok ∧ exec i s = .next (complete out (recordAddress a s)) ∧
      ((∃ data slave, i = .buildRequest data slave ∧ addr8 slave = .ok a) ∨
        ∃ data, i = .parseRequest data ∧ a = byteAt data 0 ∧ out.addr = some a)) ∨
    (∃ r, exec i s = .refused r) := by
  have encodes : ∀ d o, (∃ out, runEncode d o s = .next (complete out s)) ∨ ∃ r, runEncode d o s = .refused r := by
    intro d o
    rcases runEncode_cases d o with ⟨-, out, h⟩ | ⟨-, h⟩
    · exact .inl ⟨out, h s⟩
    · exact .inr ⟨_, h s⟩
  have decodes : ∀ d qty p, ∃ out, runDecode d qty p s = .next (complete out s) := by
    intro d qty p
    obtain ⟨out, h⟩ := runDecode_completes d qty p
    exact ⟨out, h s⟩
  cases i with
  | crc16 data => exact .inl ⟨_, rfl⟩
  | encode fc o =>
    simp only [exec, execEncode]
    split
    · exact .inl ⟨_, rfl⟩
    · rcases encodes _ o with h | h
      · exact .inl h
      · exact .inr (.inr h)
  | decode fc qty data =>
    simp only [exec, execDecode]
    split
    · exact .inl ⟨_, rfl⟩
    · exact .inl (decodes ..)
  | exceptionRsp fc qty low rest =>
    simp only [exec, execExceptionRsp]
    split
    · exact .inl ⟨_, rfl⟩
    · exact .inl (decodes ..)
  | buildRequest data slave =>
    simp only [exec, execBuildRequest]
    split
    · exact .inl ⟨_, rfl⟩
    · exact .inr (.inl ⟨_, _, rfl, rfl, .inl ⟨data, slave, rfl, ‹_›⟩⟩)
  | parseResponse data =>
    obtain ⟨out, h⟩ := finish_completes (parsedResponse s data)
    exact .inl ⟨out, h s⟩
  | parseRequest data =>
    simp only [exec, execParseRequest]
    split
    · exact .inl ⟨_, rfl⟩
    · rename_i r hr
      simp only [parsedRequest] at hr
      split at hr
      · simp at hr
      · split at hr
        · simp at hr
        · cases hr
          exact .inr (.inl ⟨_, _, rfl, rfl, .inr ⟨data, rfl, rfl, rfl⟩⟩)
  | buildResponse data =>
    simp only [exec, execBuildResponse]
    split <;> exact .inl ⟨_, rfl⟩
  | reservedOp7 => exact .inr (.inr ⟨_, rfl⟩)
  | _ =>
    first
    | exact .inl (decodes ..)
    | (simp only [exec, execReadCoilsReq, execReadDiscreteInputsReq, execReadHoldingRegistersReq,
        execReadInputRegistersReq, execWriteSingleCoilReq, execWriteSingleRegisterReq, execReadExceptionStatusReq,
        execDiagnosticReq, execWriteMultipleCoilsReq, execWriteMultipleRegistersReq,
        execReadWriteMultipleRegistersReq]
       exact (encodes _ _).elim .inl fun h => .inr (.inr h))

/-- A step: the run has ended, the host resets, or a command runs. -/
theorem step_cases (s : State) :
    (s.port = [] ∧ step s = .fault .endOfRun) ∨
    (∃ rest, s.port = .reset :: rest ∧ step s = .next { State.reset with port := rest }) ∨
    (∃ c rest, s.port = .command c :: rest ∧ step s = exec (decode c) { s with port := rest }) := by
  unfold step
  split
  · exact .inl ⟨‹_›, rfl⟩
  · exact .inr (.inl ⟨_, ‹_›, rfl⟩)
  · exact .inr (.inr ⟨_, _, ‹_›, rfl⟩)

end Sys2Proof.Machine
end

