-- ==== Sys2Proof/Laws/PerInstr.lean ====
section
/-! SUPPORT. Facts about every instruction as syntax, one lemma for each constructor. -/

namespace Sys2Proof.Laws.OpField

/-- The OP of the command an instruction belongs to (R80): 1 for the request rows, 2 for the response rows. -/
def opOf : Instr → BitVec 3
  | .readCoilsReq _ _ _ => 1
  | .readDiscreteInputsReq _ _ _ => 1
  | .readHoldingRegistersReq _ _ _ => 1
  | .readInputRegistersReq _ _ _ => 1
  | .writeSingleCoilReq _ _ _ => 1
  | .writeSingleRegisterReq _ _ _ => 1
  | .readExceptionStatusReq _ => 1
  | .diagnosticReq _ _ _ => 1
  | .writeMultipleCoilsReq _ _ _ _ => 1
  | .writeMultipleRegistersReq _ _ _ _ => 1
  | .readWriteMultipleRegistersReq _ _ _ _ _ => 1
  | .readCoilsRsp _ _ => 2
  | .readDiscreteInputsRsp _ _ => 2
  | .readHoldingRegistersRsp _ _ => 2
  | .readInputRegistersRsp _ _ => 2
  | .writeSingleCoilRsp _ => 2
  | .writeSingleRegisterRsp _ => 2
  | .readExceptionStatusRsp _ => 2
  | .diagnosticRsp _ => 2
  | .writeMultipleCoilsRsp _ => 2
  | .writeMultipleRegistersRsp _ => 2
  | .readWriteMultipleRegistersRsp _ _ => 2
  | .exceptionRsp _ _ _ _ => 2
  | .crc16 _ => 0
  | .encode _ _ => 1
  | .decode _ _ _ => 2
  | .buildRequest _ _ => 3
  | .parseResponse _ => 4
  | .parseRequest _ => 5
  | .buildResponse _ => 6
  | .reservedOp7 => 7

/-- The command record of an instruction carries the OP of its command (R80). -/
def Statement (i : Instr) : Prop := (encode i).op = opOf i

theorem readCoilsReq (start qty : Int) (lenOvr : Option Nat) : Statement (.readCoilsReq start qty lenOvr) := rfl
theorem readDiscreteInputsReq (start qty : Int) (lenOvr : Option Nat) : Statement (.readDiscreteInputsReq start qty lenOvr) := rfl
theorem readHoldingRegistersReq (start qty : Int) (lenOvr : Option Nat) : Statement (.readHoldingRegistersReq start qty lenOvr) := rfl
theorem readInputRegistersReq (start qty : Int) (lenOvr : Option Nat) : Statement (.readInputRegistersReq start qty lenOvr) := rfl
theorem writeSingleCoilReq (start value : Int) (lenOvr : Option Nat) : Statement (.writeSingleCoilReq start value lenOvr) := rfl
theorem writeSingleRegisterReq (start value : Int) (lenOvr : Option Nat) : Statement (.writeSingleRegisterReq start value lenOvr) := rfl
theorem readExceptionStatusReq (lenOvr : Option Nat) : Statement (.readExceptionStatusReq lenOvr) := rfl
theorem diagnosticReq (start : Int) (values : List Int) (lenOvr : Option Nat) : Statement (.diagnosticReq start values lenOvr) := rfl
theorem writeMultipleCoilsReq (start qty : Int) (values : List Int) (lenOvr : Option Nat) : Statement (.writeMultipleCoilsReq start qty values lenOvr) := rfl
theorem writeMultipleRegistersReq (start qty : Int) (values : List Int) (lenOvr : Option Nat) : Statement (.writeMultipleRegistersReq start qty values lenOvr) := rfl
theorem readWriteMultipleRegistersReq (start qty waddr : Int) (values : List Int) (lenOvr : Option Nat) : Statement (.readWriteMultipleRegistersReq start qty waddr values lenOvr) := rfl
theorem readCoilsRsp (qty : Int) (data : Bytes) : Statement (.readCoilsRsp qty data) := rfl
theorem readDiscreteInputsRsp (qty : Int) (data : Bytes) : Statement (.readDiscreteInputsRsp qty data) := rfl
theorem readHoldingRegistersRsp (qty : Int) (data : Bytes) : Statement (.readHoldingRegistersRsp qty data) := rfl
theorem readInputRegistersRsp (qty : Int) (data : Bytes) : Statement (.readInputRegistersRsp qty data) := rfl
theorem writeSingleCoilRsp (data : Bytes) : Statement (.writeSingleCoilRsp data) := rfl
theorem writeSingleRegisterRsp (data : Bytes) : Statement (.writeSingleRegisterRsp data) := rfl
theorem readExceptionStatusRsp (data : Bytes) : Statement (.readExceptionStatusRsp data) := rfl
theorem diagnosticRsp (data : Bytes) : Statement (.diagnosticRsp data) := rfl
theorem writeMultipleCoilsRsp (data : Bytes) : Statement (.writeMultipleCoilsRsp data) := rfl
theorem writeMultipleRegistersRsp (data : Bytes) : Statement (.writeMultipleRegistersRsp data) := rfl
theorem readWriteMultipleRegistersRsp (qty : Int) (data : Bytes) : Statement (.readWriteMultipleRegistersRsp qty data) := rfl
theorem exceptionRsp (fc qty : Int) (low : BitVec 7) (rest : Bytes) : Statement (.exceptionRsp fc qty low rest) := rfl
theorem crc16 (data : Bytes) : Statement (.crc16 data) := rfl
theorem encode (fc : Int) (ops : EncodeOperands) : Statement (.encode fc ops) := rfl
theorem decode (fc qty : Int) (data : Bytes) : Statement (.decode fc qty data) := rfl
theorem buildRequest (data : Bytes) (slave : Int) : Statement (.buildRequest data slave) := rfl
theorem parseResponse (data : Bytes) : Statement (.parseResponse data) := rfl
theorem parseRequest (data : Bytes) : Statement (.parseRequest data) := rfl
theorem buildResponse (data : Bytes) : Statement (.buildResponse data) := rfl
theorem reservedOp7 : Statement (.reservedOp7) := rfl

end Sys2Proof.Laws.OpField
end

