-- ==== Sys2Proof/Tests/Slice0.lean ====
section
/-! SUPPORT. The model's own tests. Expected results are the spec's: the worked examples and vectors of
95_test_vectors.md (named in each comment), the trace of R133, or words written out from R80, R83, R84 and R86. The
witnesses at the end meet the hypotheses of the statements of Certificates/Slice0/Obligations.lean. -/

namespace Sys2Proof.Tests

open Machine Safety

/-- The outcome of `i`, if it completes in `s`. -/
def outcomeOf (i : Instr) (s : State) : Option Response :=
  match exec i s with
  | .next t => some t.response
  | .fault _ => none
  | .refused _ => none

/-- LAST_VALID and LAST_ADDR after `i`, if it completes in `s`. -/
def registerAfter (i : Instr) (s : State) : Option (Bool × Byte) :=
  match exec i s with
  | .next t => some (t.lastValid, t.lastAddr)
  | .fault _ => none
  | .refused _ => none

/-- A state in which the address `a` has been recorded. -/
def recorded (a : Byte) : State := recordAddress a State.reset

/-! ### Syntax: each check refuses an ill-formed term -/

theorem test_wf_readCoilsRsp : wellFormed (.readCoilsRsp 1 [0x81, 0x01]) = false := by decide
theorem test_wf_readDiscreteInputsRsp : wellFormed (.readDiscreteInputsRsp 1 [0x82, 0x01]) = false := by decide
theorem test_wf_readHoldingRegistersRsp : wellFormed (.readHoldingRegistersRsp 1 [0x83]) = false := by decide
theorem test_wf_readInputRegistersRsp : wellFormed (.readInputRegistersRsp 1 [0x84, 0x02]) = false := by decide
theorem test_wf_writeSingleCoilRsp : wellFormed (.writeSingleCoilRsp [0x85, 0x02]) = false := by decide
theorem test_wf_writeSingleRegisterRsp : wellFormed (.writeSingleRegisterRsp [0x86, 0x02]) = false := by decide
theorem test_wf_readExceptionStatusRsp : wellFormed (.readExceptionStatusRsp [0x87, 0x02]) = false := by decide
theorem test_wf_diagnosticRsp : wellFormed (.diagnosticRsp [0x88, 0x02]) = false := by decide
theorem test_wf_writeMultipleCoilsRsp : wellFormed (.writeMultipleCoilsRsp [0x8F, 0x02]) = false := by decide
theorem test_wf_writeMultipleRegistersRsp : wellFormed (.writeMultipleRegistersRsp [0x90, 0x02]) = false := by decide
theorem test_wf_readWriteMultipleRegistersRsp :
    wellFormed (.readWriteMultipleRegistersRsp 1 [0xFF, 0x02]) = false := by decide
theorem test_wf_exceptionRsp : wellFormed (.exceptionRsp 0x2B 0 0x03 [0x02]) = false := by decide
theorem test_wf_encode : wellFormed (.encode 0x03 {}) = false := by decide
theorem test_wf_decode : wellFormed (.decode 0x17 0 []) = false := by decide

theorem test_wire_start : wireWellFormed (.readCoilsReq 65536 1 none) = false := by decide
theorem test_wire_qty : wireWellFormed (.readDiscreteInputsReq 0 (-1) none) = false := by decide
theorem test_wire_lenOvr : wireWellFormed (.readHoldingRegistersReq 0 1 (some 7)) = false := by decide
theorem test_wire_coilValue : wireWellFormed (.writeSingleCoilReq 0 2 none) = false := by decide
theorem test_wire_signedValue : wireWellFormed (.writeSingleRegisterReq 0 (-1) none) = false := by decide
theorem test_wire_statusLenOvr : wireWellFormed (.readExceptionStatusReq (some 5)) = false := by decide
theorem test_wire_dataByte : wireWellFormed (.diagnosticReq 0 [256] none) = false := by decide
theorem test_wire_coilCount : wireWellFormed (.writeMultipleCoilsReq 0 2 [1] none) = false := by decide
theorem test_wire_coilBit : wireWellFormed (.writeMultipleCoilsReq 0 1 [2] none) = false := by decide
theorem test_wire_coilLimit :
    wireWellFormed (.writeMultipleCoilsReq 0 2041 (List.replicate 2041 1) none) = false := by
  decide +kernel
theorem test_wire_registerCount : wireWellFormed (.writeMultipleRegistersReq 0 3 [1, 2] none) = false := by decide
theorem test_wire_registerLimit :
    wireWellFormed (.writeMultipleRegistersReq 0 128 (List.replicate 128 0) none) = false := by
  decide +kernel
theorem test_wire_waddr : wireWellFormed (.readWriteMultipleRegistersReq 0 1 65536 [] none) = false := by decide
theorem test_wire_notARequest : wireWellFormed (.crc16 []) = false := by decide

/-! ### Decoding: a record written out from R80, R83, R88 and R92 for each row -/

theorem test_decode_readCoilsReq :
    decode { op := 0b001, fc := 0x01, start := 0x13, qty := 37 } = .readCoilsReq 0x13 37 none := by decide
theorem test_decode_readDiscreteInputsReq :
    decode { op := 0b001, fc := 0x02, start := 0xC4, qty := 22 } = .readDiscreteInputsReq 0xC4 22 none := by decide
theorem test_decode_readHoldingRegistersReq :
    decode { op := 0b001, fc := 0x03, qty := 1, lenOvr := some 0 } = .readHoldingRegistersReq 0 1 (some 0) := by decide
theorem test_decode_readInputRegistersReq :
    decode { op := 0b001, fc := 0x04, start := 8, qty := 1 } = .readInputRegistersReq 8 1 none := by decide
theorem test_decode_writeSingleCoilReq :
    decode { op := 0b001, fc := 0x05, start := 1, qty := 99, value := 1 } = .writeSingleCoilReq 1 1 none := by decide
theorem test_decode_writeSingleRegisterReq :
    decode { op := 0b001, fc := 0x06, start := 1, value := -1 } = .writeSingleRegisterReq 1 (-1) none := by decide
theorem test_decode_readExceptionStatusReq :
    decode { op := 0b001, fc := 0x07, start := -9, qty := -9, value := 7 } = .readExceptionStatusReq none := by decide
theorem test_decode_diagnosticReq :
    decode { op := 0b001, fc := 0x08, start := 0x0A, values := [0xA5] } = .diagnosticReq 0x0A [0xA5] none := by decide
theorem test_decode_writeMultipleCoilsReq :
    decode { op := 0b001, fc := 0x0F, qty := 2, values := [1, 0] } = .writeMultipleCoilsReq 0 2 [1, 0] none := by decide
theorem test_decode_writeMultipleRegistersReq :
    decode { op := 0b001, fc := 0x10, start := 1, qty := 1, values := [-2] } =
      .writeMultipleRegistersReq 1 1 [-2] none := by decide
theorem test_decode_readWriteMultipleRegistersReq :
    decode { op := 0b001, fc := 0x17, start := 3, qty := 6, waddr := 0x0E, values := [0xFF] } =
      .readWriteMultipleRegistersReq 3 6 0x0E [0xFF] none := by decide
theorem test_decode_readCoilsRsp :
    decode { op := 0b010, fc := 0x01, qty := 8, data := [0x01, 0x01, 0x81] } = .readCoilsRsp 8 [0x01, 0x01, 0x81] := by
  decide
theorem test_decode_readDiscreteInputsRsp :
    decode { op := 0b010, fc := 0x02, qty := 8, data := [0x02] } = .readDiscreteInputsRsp 8 [0x02] := by decide
theorem test_decode_readHoldingRegistersRsp :
    decode { op := 0b010, fc := 0x03, qty := 1, data := [0x03] } = .readHoldingRegistersRsp 1 [0x03] := by decide
theorem test_decode_readInputRegistersRsp :
    decode { op := 0b010, fc := 0x04, qty := 1, data := [] } = .readInputRegistersRsp 1 [] := by decide
/-- Byte 0 differs from the FC operand: the operand chooses (R90). -/
theorem test_decode_writeSingleCoilRsp :
    decode { op := 0b010, fc := 0x05, qty := -7, data := [0x06, 0x00, 0x01, 0x00, 0x03] } =
      .writeSingleCoilRsp [0x06, 0x00, 0x01, 0x00, 0x03] := by decide
theorem test_decode_writeSingleRegisterRsp :
    decode { op := 0b010, fc := 0x06, data := [0x06] } = .writeSingleRegisterRsp [0x06] := by decide
theorem test_decode_readExceptionStatusRsp :
    decode { op := 0b010, fc := 0x07, data := [0x07, 0x6D] } = .readExceptionStatusRsp [0x07, 0x6D] := by decide
theorem test_decode_diagnosticRsp :
    decode { op := 0b010, fc := 0x08, data := [0x08] } = .diagnosticRsp [0x08] := by decide
theorem test_decode_writeMultipleCoilsRsp :
    decode { op := 0b010, fc := 0x0F, data := [0x0F] } = .writeMultipleCoilsRsp [0x0F] := by decide
theorem test_decode_writeMultipleRegistersRsp :
    decode { op := 0b010, fc := 0x10, data := [0x10] } = .writeMultipleRegistersRsp [0x10] := by decide
theorem test_decode_readWriteMultipleRegistersRsp :
    decode { op := 0b010, fc := 0x17, qty := 3, data := [0x17] } = .readWriteMultipleRegistersRsp 3 [0x17] := by decide
theorem test_decode_exceptionRsp :
    decode { op := 0b010, fc := 0x03, qty := 1, data := [0x90, 0x04] } = .exceptionRsp 0x03 1 0b0010000 [0x04] := by decide
theorem test_decode_crc16 : decode { op := 0b000, data := [0x01, 0x03] } = .crc16 [0x01, 0x03] := by decide
theorem test_decode_encode :
    decode { op := 0b001, fc := 0x83, value := 4 } = .encode 0x83 { value := 4 } := by decide
theorem test_decode_decode :
    decode { op := 0b010, fc := 0x2B, data := [0xAB] } = .decode 0x2B 0 [0xAB] := by decide
theorem test_decode_buildRequest : decode { op := 0b011, data := [0x03], slave := 256 } = .buildRequest [0x03] 256 := by
  decide
theorem test_decode_parseResponse : decode { op := 0b100, data := [0x01] } = .parseResponse [0x01] := by decide
theorem test_decode_parseRequest : decode { op := 0b101, data := [0x01] } = .parseRequest [0x01] := by decide
theorem test_decode_buildResponse : decode { op := 0b110, data := [0x01] } = .buildResponse [0x01] := by decide
theorem test_decode_reservedOp7 : decode { op := 0b111, data := [0x01] } = .reservedOp7 := by decide

/-! ### Request PDUs written out byte by byte from R84 -/

theorem test_pdu_readDiscreteInputs :
    decodeRequestPdu [0x02, 0x00, 0xC4, 0x00, 0x16] = .ok (.readDiscreteInputsReq 196 22 none) := by decide
theorem test_pdu_readHoldingRegisters :
    decodeRequestPdu [0x03, 0x12, 0x34, 0xFF, 0xFF] = .ok (.readHoldingRegistersReq 0x1234 65535 none) := by decide
theorem test_pdu_readInputRegisters :
    decodeRequestPdu [0x04, 0x00, 0x08, 0x00, 0x01] = .ok (.readInputRegistersReq 8 1 none) := by decide
theorem test_pdu_writeSingleCoil :
    decodeRequestPdu [0x05, 0x00, 0xAC, 0xFF, 0x00] = .ok (.writeSingleCoilReq 172 1 none) := by decide
theorem test_pdu_writeSingleRegister :
    decodeRequestPdu [0x06, 0x00, 0x01, 0x80, 0x00] = .ok (.writeSingleRegisterReq 1 32768 none) := by decide
theorem test_pdu_readExceptionStatus : decodeRequestPdu [0x07] = .ok (.readExceptionStatusReq none) := by decide
theorem test_pdu_diagnostic :
    decodeRequestPdu [0x08, 0x00, 0x00, 0xA5, 0x37] = .ok (.diagnosticReq 0 [0xA5, 0x37] none) := by decide
theorem test_pdu_writeMultipleRegisters :
    decodeRequestPdu [0x10, 0x00, 0x01, 0x00, 0x02, 0x04, 0x00, 0x0A, 0x01, 0x02] =
      .ok (.writeMultipleRegistersReq 1 2 [0x000A, 0x0102] none) := by decide
theorem test_pdu_readWriteMultipleRegisters :
    decodeRequestPdu [0x17, 0x00, 0x03, 0x00, 0x06, 0x00, 0x0E, 0x00, 0x01, 0x02, 0x00, 0xFF] =
      .ok (.readWriteMultipleRegistersReq 3 6 14 [0xFF] none) := by decide

theorem test_pdu_refuses_empty : decodeRequestPdu [] = .error .emptyPdu := by decide
theorem test_pdu_refuses_length : decodeRequestPdu [0x01, 0x00, 0x13, 0x00] = .error .wrongLength := by decide
theorem test_pdu_refuses_coilValue : decodeRequestPdu [0x05, 0x00, 0x01, 0x00, 0xFF] = .error .badCoilValue := by decide
theorem test_pdu_refuses_byteCount :
    decodeRequestPdu [0x10, 0x00, 0x01, 0x00, 0x01, 0x03, 0x00, 0x00, 0x00] = .error .badByteCount := by decide
theorem test_pdu_refuses_padBits :
    decodeRequestPdu [0x0F, 0x00, 0x00, 0x00, 0x01, 0x01, 0x03] = .error .padBits := by decide
theorem test_pdu_refuses_function : decodeRequestPdu [0x83, 0x02] = .error (.unsupportedFunction 0x83) := by decide

/-! ### Words of the opcode table (log entry 5) -/

theorem test_table_crc16 : decodeTableWord 8 0x00 = some (.crc16 []) := by decide
theorem test_table_buildResponse : decodeTableWord 8 0x06 = some (.buildResponse []) := by decide
theorem test_table_reservedOp7 : decodeTableWord 3 0x7 = some .reservedOp7 := by decide
theorem test_table_diagnostic : decodeTableWord 8 0x08 = some (.diagnosticReq 0 [] none) := by decide
theorem test_table_writeMultipleCoils : decodeTableWord 8 0x0F = some (.writeMultipleCoilsReq 0 0 [] none) := by decide
theorem test_table_writeMultipleRegisters :
    decodeTableWord 8 0x10 = some (.writeMultipleRegistersReq 0 0 [] none) := by decide
theorem test_table_readWriteMultipleRegisters :
    decodeTableWord 8 0x17 = some (.readWriteMultipleRegistersReq 0 0 0 [] none) := by decide
theorem test_table_exception : decodeTableWord 8 0x80 = some (.exceptionRsp 0x03 0 0 [0x00]) := by decide
theorem test_table_none : decodeTableWord 8 0x2B = none := by decide

/-! ### CRC16 -/

/-- The trace of R133: the register after each of byte 0x01's eight shifts. -/
theorem test_crc_trace :
    (List.range 9).map (fun n => crcShifts n (config.crcInit ^^^ 0x01#16)) =
      [0xFFFE, 0x7FFF, 0x9FFE, 0x4FFF, 0x87FE, 0x43FF, 0x81FE, 0x40FF, 0x807E] := by decide
/-- V-CRC-7. -/
theorem test_crc16_check :
    outcomeOf (.crc16 [0x31, 0x32, 0x33, 0x34, 0x35, 0x36, 0x37, 0x38, 0x39]) State.reset =
      some { crc := some 0x4B37 } := by decide +kernel

/-! ### ENCODE -/

/-- V-ENC-1. -/
theorem test_readCoilsReq :
    outcomeOf (.readCoilsReq 0x13 37 none) State.reset =
      some { pdu := some [0x01, 0x00, 0x13, 0x00, 0x25], expLen := some 10, ctx := some (0x01, 37) } := by decide
/-- V-ENC-7. -/
theorem test_readCoilsReq_range :
    outcomeOf (.readCoilsReq 0 65536 none) State.reset =
      some { status := .invalidArgument, detail := .fieldRange } := by decide
/-- V-ENC-9. -/
theorem test_readDiscreteInputsReq :
    outcomeOf (.readDiscreteInputsReq 0xC4 22 none) State.reset =
      some { pdu := some [0x02, 0x00, 0xC4, 0x00, 0x16], expLen := some 8, ctx := some (0x02, 22) } := by decide
/-- V-ENC-14: the override 0 is passed through. -/
theorem test_readHoldingRegistersReq :
    outcomeOf (.readHoldingRegistersReq 0 1 (some 0)) State.reset =
      some { pdu := some [0x03, 0x00, 0x00, 0x00, 0x01], expLen := some 0, ctx := some (0x03, 1) } := by decide
/-- V-ENC-12. -/
theorem test_readInputRegistersReq :
    outcomeOf (.readInputRegistersReq 8 1 none) State.reset =
      some { pdu := some [0x04, 0x00, 0x08, 0x00, 0x01], expLen := some 7, ctx := some (0x04, 1) } := by decide
/-- V-ENC-17. -/
theorem test_writeSingleCoilReq :
    outcomeOf (.writeSingleCoilReq 0xAC (-5) none) State.reset =
      some { pdu := some [0x05, 0x00, 0xAC, 0xFF, 0x00], expLen := some 8, ctx := some (0x05, 0) } := by decide
/-- V-ENC-22. -/
theorem test_writeSingleRegisterReq :
    outcomeOf (.writeSingleRegisterReq 1 (-32768) none) State.reset =
      some { pdu := some [0x06, 0x00, 0x01, 0x80, 0x00], expLen := some 8, ctx := some (0x06, 0) } := by decide
/-- V-ENC-25: START is checked before VALUE. -/
theorem test_writeSingleRegisterReq_order :
    outcomeOf (.writeSingleRegisterReq (-1) 65536 none) State.reset =
      some { status := .invalidArgument, detail := .fieldRange } := by decide
/-- V-ENC-26. -/
theorem test_readExceptionStatusReq :
    outcomeOf (.readExceptionStatusReq none) State.reset =
      some { pdu := some [0x07], expLen := some 5, ctx := some (0x07, 0) } := by decide
/-- V-ENC-45. -/
theorem test_diagnosticReq :
    outcomeOf (.diagnosticReq 0 [0xA5, 0x37] none) State.reset =
      some { pdu := some [0x08, 0x00, 0x00, 0xA5, 0x37], expLen := some 8, ctx := some (0x08, 0) } := by decide
/-- V-ENC-47. -/
theorem test_diagnosticReq_range :
    outcomeOf (.diagnosticReq 0 [1, 256] none) State.reset =
      some { status := .invalidArgument, detail := .dataByteRange } := by decide
/-- V-ENC-32. -/
theorem test_writeMultipleCoilsReq :
    outcomeOf (.writeMultipleCoilsReq 0x13 10 [1, 0, 1, 1, 0, 0, 1, 1, 1, 0] none) State.reset =
      some { pdu := some [0x0F, 0x00, 0x13, 0x00, 0x0A, 0x02, 0xCD, 0x01], expLen := some 8, ctx := some (0x0F, 0) } := by
  decide
/-- V-ENC-37. -/
theorem test_writeMultipleCoilsReq_refused :
    exec (.writeMultipleCoilsReq 0 1 [2] none) State.reset = .refused .precondition := by rfl
/-- V-ENC-38. -/
theorem test_writeMultipleRegistersReq :
    outcomeOf (.writeMultipleRegistersReq 1 2 [0x000A, 0x0102] none) State.reset =
      some { pdu := some [0x10, 0x00, 0x01, 0x00, 0x02, 0x04, 0x00, 0x0A, 0x01, 0x02], expLen := some 8,
             ctx := some (0x10, 0) } := by decide
/-- V-ENC-44. -/
theorem test_writeMultipleRegistersReq_refused :
    exec (.writeMultipleRegistersReq 0 3 [1, 2] none) State.reset = .refused .precondition := by rfl
/-- V-ENC-49. -/
theorem test_readWriteMultipleRegistersReq :
    outcomeOf (.readWriteMultipleRegistersReq 3 6 0x0E [0xFF, 0xFF, 0xFF] none) State.reset =
      some { pdu := some [0x17, 0x00, 0x03, 0x00, 0x06, 0x00, 0x0E, 0x00, 0x03, 0x06, 0x00, 0xFF, 0x00, 0xFF, 0x00, 0xFF],
             expLen := some 17, ctx := some (0x17, 6) } := by decide
/-- V-ENC-51. -/
theorem test_readWriteMultipleRegistersReq_range :
    outcomeOf (.readWriteMultipleRegistersReq 0 1 65536 [] none) State.reset =
      some { status := .invalidArgument, detail := .fieldRange } := by decide
/-- V-ENC-54. -/
theorem test_encode_unsupported :
    outcomeOf (.encode 0x2B {}) State.reset = some { status := .unsupportedFunction } := by decide

/-! ### DECODE -/

/-- V-DEC-1. -/
theorem test_readCoilsRsp :
    outcomeOf (.readCoilsRsp 19 [0x01, 0x03, 0xCD, 0x6B, 0x05]) State.reset =
      some { valuesOut := some [1, 0, 1, 1, 0, 0, 1, 1, 1, 1, 0, 1, 0, 1, 1, 0, 1, 0, 1] } := by decide
/-- V-DEC-6. -/
theorem test_readCoilsRsp_layout :
    outcomeOf (.readCoilsRsp 8 [0x01, 0x02, 0x81, 0x00]) State.reset =
      some { status := .invalidResponseFrame, detail := .layoutMismatch } := by decide
/-- V-DEC-9. -/
theorem test_readDiscreteInputsRsp :
    outcomeOf (.readDiscreteInputsRsp 22 [0x02, 0x03, 0xAC, 0xDB, 0x35]) State.reset =
      some { valuesOut := some [0, 0, 1, 1, 0, 1, 0, 1, 1, 1, 0, 1, 1, 0, 1, 1, 1, 0, 1, 0, 1, 1] } := by decide
/-- V-DEC-10. -/
theorem test_readHoldingRegistersRsp :
    outcomeOf (.readHoldingRegistersRsp 3 [0x03, 0x06, 0x02, 0x2B, 0x00, 0x00, 0x00, 0x64]) State.reset =
      some { valuesOut := some [555, 0, 100] } := by decide
/-- V-DEC-21. -/
theorem test_readHoldingRegistersRsp_short :
    outcomeOf (.readHoldingRegistersRsp 1 [0x03]) State.reset =
      some { status := .invalidResponseFrame, detail := .tooShort } := by decide
/-- V-DEC-15. -/
theorem test_readInputRegistersRsp :
    outcomeOf (.readInputRegistersRsp 1 [0x04, 0x02, 0x00, 0x0A]) State.reset = some { valuesOut := some [10] } := by decide
/-- V-DEC-23. -/
theorem test_writeSingleCoilRsp :
    outcomeOf (.writeSingleCoilRsp [0x05, 0x00, 0xAC, 0xFF, 0x00]) State.reset =
      some { valuesOut := some [172, 65280] } := by decide
/-- V-DEC-26: unsigned. -/
theorem test_writeSingleRegisterRsp :
    outcomeOf (.writeSingleRegisterRsp [0x06, 0x00, 0x01, 0xFF, 0xFF]) State.reset =
      some { valuesOut := some [1, 65535] } := by decide
/-- V-DEC-30. -/
theorem test_readExceptionStatusRsp :
    outcomeOf (.readExceptionStatusRsp [0x07, 0x6D]) State.reset = some { valuesOut := some [109] } := by decide
/-- V-DEC-32. -/
theorem test_diagnosticRsp :
    outcomeOf (.diagnosticRsp [0x08, 0x00, 0x00, 0xA5, 0x37]) State.reset =
      some { valuesOut := some [0, 165, 55] } := by decide
/-- V-DEC-34. -/
theorem test_diagnosticRsp_layout :
    outcomeOf (.diagnosticRsp [0x08, 0x00]) State.reset =
      some { status := .invalidResponseFrame, detail := .layoutMismatch } := by decide
/-- V-DEC-27. -/
theorem test_writeMultipleCoilsRsp :
    outcomeOf (.writeMultipleCoilsRsp [0x0F, 0x00, 0x13, 0x00, 0x0A]) State.reset =
      some { valuesOut := some [19, 10] } := by decide
/-- V-DEC-29. -/
theorem test_writeMultipleRegistersRsp_layout :
    outcomeOf (.writeMultipleRegistersRsp [0x10, 0x00, 0x01, 0x00, 0x02, 0x00]) State.reset =
      some { status := .invalidResponseFrame, detail := .layoutMismatch } := by decide
/-- V-DEC-35. -/
theorem test_readWriteMultipleRegistersRsp :
    outcomeOf (.readWriteMultipleRegistersRsp 3 [0x17, 0x06, 0x00, 0xFE, 0x0A, 0xCD, 0x00, 0x01]) State.reset =
      some { valuesOut := some [254, 2765, 1] } := by decide
/-- V-DEC-18: the low 7 bits of byte 0 are not compared. -/
theorem test_exceptionRsp :
    outcomeOf (.exceptionRsp 0x03 1 0x10 [0x04]) State.reset = some { status := .slaveException, excCode := 0x04 } := by
  decide
/-- V-DEC-22: QTY is checked before the exception bit. -/
theorem test_exceptionRsp_qty :
    outcomeOf (.exceptionRsp 0x03 (-1) 0x03 [0x02]) State.reset =
      some { status := .invalidArgument, detail := .fieldRange } := by decide
/-- V-DEC-37. -/
theorem test_decode_unsupported :
    outcomeOf (.decode 0x2B 0 [0x2B]) State.reset = some { status := .unsupportedFunction } := by decide
/-- V-DEC-20. -/
theorem test_decode_empty :
    outcomeOf (.decode 0x05 0 []) State.reset = some { status := .invalidResponseFrame, detail := .emptyPdu } := by decide

/-! ### Framer -/

/-- V-FR-5. -/
theorem test_buildRequest :
    outcomeOf (.buildRequest [0x03, 0x00, 0x00, 0x00, 0x0A] 1) State.reset =
        some { frame := some [0x01, 0x03, 0x00, 0x00, 0x00, 0x0A, 0xC5, 0xCD] } ∧
      registerAfter (.buildRequest [0x03, 0x00, 0x00, 0x00, 0x0A] 1) State.reset = some (true, 0x01) := by
  decide +kernel
/-- V-FR-4. -/
theorem test_buildRequest_range :
    outcomeOf (.buildRequest [0x03] 256) (recorded 0x11) = some { status := .invalidArgument, detail := .addrRange } ∧
      registerAfter (.buildRequest [0x03] 256) (recorded 0x11) = some (true, 0x11) := by decide
/-- V-FR-11 and V-FR-12: swapping the trailer's bytes breaks the CRC. -/
theorem test_parseResponse :
    outcomeOf (.parseResponse [0x11, 0x83, 0x02, 0xC1, 0x34]) (recorded 0x11) = some { pdu := some [0x83, 0x02] } ∧
      outcomeOf (.parseResponse [0x11, 0x83, 0x02, 0x34, 0xC1]) (recorded 0x11) =
        some { status := .invalidResponseFrame, detail := .crcMismatch } := by decide +kernel
/-- V-FR-1 and V-FR-10. -/
theorem test_parseResponse_order :
    outcomeOf (.parseResponse [0x01, 0x03, 0x00]) State.reset =
        some { status := .invalidResponseFrame, detail := .noRequest } ∧
      outcomeOf (.parseResponse [0x12, 0x00, 0x00]) (recorded 0x11) =
        some { status := .invalidResponseFrame, detail := .addrMismatch } := by decide
/-- V-FR-19. -/
theorem test_parseRequest :
    outcomeOf (.parseRequest [0xF7, 0x08, 0x46, 0x46]) State.reset = some { addr := some 0xF7, pdu := some [0x08] } ∧
      registerAfter (.parseRequest [0xF7, 0x08, 0x46, 0x46]) State.reset = some (true, 0xF7) := by
  decide +kernel
/-- V-FR-16. -/
theorem test_parseRequest_crc :
    outcomeOf (.parseRequest [0x11, 0x03, 0x00, 0x6B, 0x00, 0x03, 0x00, 0x00]) (recorded 0x11) =
      some { status := .invalidRequestFrame, detail := .crcMismatch } := by decide +kernel
/-- V-FR-20. -/
theorem test_buildResponse :
    outcomeOf (.buildResponse []) (recorded 0xF7) = some { frame := some [0xF7, 0xFE, 0xC6] } := by decide
/-- V-FR-2. -/
theorem test_buildResponse_noRequest :
    outcomeOf (.buildResponse [0x03]) State.reset = some { status := .invalidArgument, detail := .noRequest } := by decide
/-- R80, R286. -/
theorem test_reservedOp7 : exec .reservedOp7 State.reset = .refused .reservedOp := by rfl

/-! ### Witnesses for the statements with hypotheses -/

/-- DecodeOfEncodedInstruction: an EXCEPTION row, a general command and a row with a negative operand are well-formed. -/
theorem witness_wellFormed :
    wellFormed (.exceptionRsp 0x17 65535 0x7F []) = true ∧ wellFormed (.encode (-1) {}) = true ∧
      wellFormed (.readCoilsReq (-1) 65536 (some 0)) = true := by decide

/-- RequestPduReadsBack, at the boundaries of the fields. -/
theorem witness_wireWellFormed :
    wireWellFormed (.readCoilsReq 65535 0 none) = true ∧ wireWellFormed (.diagnosticReq 0 [0, 255] none) = true ∧
      wireWellFormed (.writeMultipleRegistersReq 0 1 [65535] none) = true ∧
      wireWellFormed (.writeMultipleCoilsReq 0 0 [] none) = true := by decide

/-- RequestPduReadsBack, the longest write of coils. -/
theorem witness_wireWellFormed_longest :
    wireWellFormed (.writeMultipleCoilsReq 65535 2040 (List.replicate 2040 1) none) = true := by
  decide +kernel

/-- ReadRequestPduIsTheOneBuilt: the test_pdu theorems above give one accepted PDU of each layout; this is the shortest. -/
theorem witness_readPdu : decodeRequestPdu [0x07] = .ok (.readExceptionStatusReq none) := by decide

/-- StepRunsDecodedInstruction and ResetClearsTheBlock: a port that issues a record, one that resets, and the empty one. -/
theorem witness_port :
    (State.reset.port = []) ∧
      ({ State.reset with port := [.command (encode (.crc16 [])), .reset] } : State).port =
        .command (encode (.crc16 [])) :: [.reset] ∧
      wellFormed (.crc16 []) = true ∧
      ({ State.reset with port := [.reset] } : State).port = .reset :: [] := by decide

/-- TableWordRunsNext. -/
theorem witness_tableWord : decodeTableWord 8 0x17 = some (.readWriteMultipleRegistersReq 0 0 0 [] none) := by decide

/-- The ENCODE statements: both branches of the precondition, and every boundary of their ranges. -/
theorem witness_encodeRanges :
    ((([1, 0] : List Int).length : Int) = 2 ∧ ∀ v ∈ ([1, 0] : List Int), v = 0 ∨ v = 1) ∧
      ¬((([2] : List Int).length : Int) = 1 ∧ ∀ v ∈ ([2] : List Int), v = 0 ∨ v = 1) ∧
      ¬outsideWord 0 ∧ ¬outsideWord 65535 ∧ outsideWord (-1) ∧ outsideWord 65536 ∧
      registerValue (-32768) ∧ registerValue 65535 ∧ ¬registerValue (-32769) ∧ ¬registerValue 65536 := by
  decide

/-- UnlistedFunctionCodeIsUnsupported: V-ENC-54's four codes. -/
theorem witness_unlisted :
    (0x2B : Int) ∉ supported ∧ (0x83 : Int) ∉ supported ∧ (256 : Int) ∉ supported ∧ (-1 : Int) ∉ supported := by decide

/-- SlaveExceptionCarriesTheSecondByte and ExceptionRowChecksInOrder: a function that reads QTY and one that does not. -/
theorem witness_slaveException :
    ((0x17 : Int) ∈ supported ∧ (0x17 : Int) ∈ countedByQuantity ∧ (0 : Int) ≤ 65535 ∧ (65535 : Int) ≤ 65535) ∧
      ((0x05 : Int) ∈ supported ∧ (0x05 : Int) ∉ countedByQuantity) := by decide

/-- SuccessfulDecodeHasTheRightShape: one successful DECODE of each family (V-DEC-4, -10, -23, -30, -33). -/
theorem witness_successfulDecode :
    outcomeOf (.decode 0x01 0 [0x01, 0x00]) State.reset = some { valuesOut := some [] } ∧
      outcomeOf (.decode 0x03 3 [0x03, 0x06, 0x02, 0x2B, 0x00, 0x00, 0x00, 0x64]) State.reset =
        some { valuesOut := some [555, 0, 100] } ∧
      outcomeOf (.decode 0x05 0 [0x05, 0x00, 0xAC, 0xFF, 0x00]) State.reset = some { valuesOut := some [172, 65280] } ∧
      outcomeOf (.decode 0x07 0 [0x07, 0x6D]) State.reset = some { valuesOut := some [109] } ∧
      outcomeOf (.decode 0x08 0 [0x08, 0x00, 0x0A]) State.reset = some { valuesOut := some [10] } := by decide

/-- PackedCoilsDecodeBack and PackedCoilBitOrder: the longest list, and W4's list of nine. -/
theorem witness_packedCoils :
    (List.replicate 2040 (1 : Int)).length ≤ 2040 ∧ (∀ b ∈ List.replicate 2040 (1 : Int), b = 0 ∨ b = 1) ∧
      packBits [1, 0, 0, 1, 0, 0, 1, 0, 0] = [0x49, 0x00] := by
  refine ⟨by rw [List.length_replicate], fun b hb => .inr (List.eq_of_mem_replicate hb), by decide⟩

/-- PackedCoilBitOrder's clauses meet at the last coil and the first pad bit (W4, N = 9). -/
theorem witness_packedCoils_boundary :
    ((packBits [1, 0, 0, 1, 0, 0, 1, 0, 1]).getD (8 / 8) 0).getLsbD (8 % 8) = true ∧
      ((packBits [1, 0, 0, 1, 0, 0, 1, 0, 1]).getD (9 / 8) 0).getLsbD (9 % 8) = false := by decide

/-- BuiltFrameParsesBack: a state other than the one after the request that still holds its address (V-FR-7, V-FR-13). -/
theorem witness_roundTrip :
    registerAfter (.buildRequest [] 0x11) State.reset = some (true, 0x11) ∧
      ((recorded 0x11).lastAddr = 0x11 ∧ (recorded 0x11).lastValid = true) ∧
      outcomeOf (.parseResponse [0x11, 0x7F, 0x4C]) (recorded 0x11) = some { pdu := some [] } := by decide

/-- ResponseIsCheckedAgainstNewestRequest: BUILD_REQUEST to slave 1 (program P6), then PARSE_REQUEST from 0xF7 (V-FR-19)
or BUILD_REQUEST to slave 2. -/
theorem witness_newestRequest :
    (0x01 : Byte) ≠ 0xF7 ∧
      (∃ t, RequestSucceeds (.buildRequest [0x03, 0x00, 0x00, 0x00, 0x01] (0x01#8).toNat) 0x01 State.reset t) ∧
      (∃ t, RequestSucceeds (.parseRequest [0xF7, 0x08, 0x46, 0x46]) 0xF7 (recorded 0x01) t) ∧
      ∃ t, RequestSucceeds (.buildRequest [0x01, 0x00, 0x00, 0x00, 0x08] (0x02#8).toNat) 0x02 (recorded 0x01) t := by
  refine ⟨by decide, ⟨_, rfl, rfl, .inl ⟨_, rfl⟩⟩,
    ⟨complete { addr := some 0xF7, pdu := some [0x08] } (recordAddress 0xF7 (recorded 0x01)), ?_, rfl,
      .inr ⟨_, rfl, rfl⟩⟩, ⟨_, rfl, rfl, .inl ⟨_, rfl⟩⟩⟩
  have h : crcOk config.crcByteOrder [0xF7, 0x08, 0x46, 0x46] = true := by decide +kernel
  simp only [exec, execParseRequest, parsedRequest, h]
  rfl

/-- ResponseIsCheckedAgainstNewestRequest: a request of either kind that fails in between (V-FR-4, V-FR-17). -/
theorem witness_failedRequest :
    (∃ t, RequestFails (.buildRequest [0x03] 256) (recorded 0x02) t) ∧
      ∃ t, RequestFails (.parseRequest [0x01, 0x02]) (recorded 0x02) t :=
  ⟨⟨_, rfl, by decide, .inl ⟨_, _, rfl⟩⟩, ⟨_, rfl, by decide, .inr ⟨_, rfl⟩⟩⟩

/-- ReservedOpIsRefused: a record with OP 7 and operands. -/
theorem witness_reservedOp : ({ op := 7, fc := 0x03, slave := -1, data := [0x01] } : Command).op = 7 := rfl

/-- NoPartialDecode: nothing raises, and each of the three raises (V-DEC-4, V-DEC-8, V-DEC-20, V-DEC-6). -/
theorem witness_noPartialDecode :
    lookup 0x01 = some readCoils ∧
      (checkQuantity readCoils 0 = .ok () ∧ checkException [0x01, 0x00] = .ok () ∧
        decodePayload readCoils.responseLayout [0x01, 0x00] 0 = .ok []) ∧
      checkQuantity readCoils 65536 = .error (.invalidArgument .fieldRange) ∧
      checkException [] = .error (.invalidResponseFrame .emptyPdu) ∧
      decodePayload readCoils.responseLayout [0x01, 0x02, 0x81, 0x00] 8 =
        .error (.invalidResponseFrame .layoutMismatch) :=
  ⟨rfl, ⟨rfl, rfl, rfl⟩, rfl, rfl, rfl⟩

/-- ExceptionCodePassesThrough: a supported function with QTY at either end of its range. -/
theorem witness_exceptionCode :
    (lookup 0x03).isSome = true ∧ ((0 : Int) ≤ 0 ∧ (0 : Int) ≤ 65535) ∧ ((0 : Int) ≤ 65535 ∧ (65535 : Int) ≤ 65535) := by
  decide

/-- OnlyRequestsWriteTheRegister, FailedCommandLeavesNoTrace and OutcomeDependsOnlyOnTheRegister: a failed command that
completes, then a command that succeeds (V-FR-4, V-FR-20). -/
theorem witness_completes :
    (∃ t u, exec (.buildRequest [0x03] (-1)) (recorded 0xF7) = .next t ∧ t.response.status ≠ .ok ∧
      exec (.buildResponse []) t = .next u ∧ u.response.frame = some [0xF7, 0xFE, 0xC6]) :=
  ⟨_, _, rfl, by decide, rfl, by decide⟩

/-- OutcomeDependsOnlyOnTheRegister: two different states with the same register, and a command that reads neither. -/
theorem witness_register :
    (recorded 0x05).lastAddr = ({ recorded 0x05 with index := 9 } : State).lastAddr ∧
      (recorded 0x05).lastValid = ({ recorded 0x05 with index := 9 } : State).lastValid ∧
      recorded 0x05 ≠ { recorded 0x05 with index := 9 } ∧
      ((∀ data, Instr.crc16 [] ≠ .parseResponse data) ∧ ∀ data, Instr.crc16 [] ≠ .buildResponse data) := by
  refine ⟨rfl, rfl, by decide, by simp, by simp⟩

/-- StepKeepsTheInvariant: a state with a recorded address and a command to run. -/
theorem witness_invariant :
    ∃ s t : State, Inv s ∧ s.lastValid = true ∧ step s = .next t :=
  ⟨{ recorded 0x05 with index := 1, port := [.command { op := 6 }] }, _, by decide, rfl, rfl⟩

/-- ResetClearsTheBlock: the step that clears LAST_VALID. -/
theorem witness_reset :
    ∃ t : State, step { recorded 0x05 with port := [.reset] } = .next t ∧ t.lastValid = false :=
  ⟨_, rfl, rfl⟩

/-- AddressIsRecordedOnceARequestSucceeds and ObservationHasOneOutcomePerCommand: a run of two commands with a failed and a successful
request, and one that is refused. -/
theorem witness_observe :
    (∃ o, observe [{ op := 3, slave := 256 }, { op := 3, slave := 0x11 }] State.reset = .next o ∧ o.lastValid = true ∧
      o.outcomes.length = 2) ∧
      observe [{ op := 0 }, { op := 7 }] State.reset = .refused .reservedOp ∧
      (State.reset.lastValid = false ∧ 3 ≤ ([0x01, 0x03, 0x00] : Bytes).length) :=
  ⟨⟨_, rfl, rfl, rfl⟩, rfl, by decide⟩

/-- InstancesAreIndependent: the second of two instances makes a step. -/
theorem witness_instances :
    ∃ z, System.stepAt 1 ⟨[State.reset, { State.reset with port := [.reset] }]⟩ = some (.next z) ∧ 0 ≠ 1 :=
  ⟨_, rfl, by decide⟩

/-- TransactionMacrosPairTheCommands: the largest start and quantity, with data of that size, and another slave. -/
theorem witness_macros :
    (65535 : Nat) ≤ 65535 ∧ (127 : Nat) ≤ 127 ∧ (List.replicate 254 (0 : Byte)).length = 2 * 127 ∧
      (0x02 : Byte) ≠ 0x01 := by
  refine ⟨by decide, by decide, List.length_replicate, by decide⟩

/-- TransactionMacrosPairTheCommands: an ENCODE that succeeds, one that fails, one that is refused, and a PARSE_RESPONSE that
succeeds and one that fails (V-ENC-10, V-ENC-7, V-ENC-37, V-FR-11, V-FR-10). -/
theorem witness_macro_steps :
    (∃ t, exec (.encode 0x03 { qty := 10 }) State.reset = .next t ∧ t.response.status = .ok) ∧
      (∃ t, exec (.encode 0x01 { qty := 65536 }) State.reset = .next t ∧ t.response.status ≠ .ok) ∧
      exec (.encode 0x0F { qty := 1, values := [2] }) State.reset = .refused .precondition ∧
      (∃ t, exec (.parseResponse [0x11, 0x83, 0x02, 0xC1, 0x34]) (recorded 0x11) = .next t ∧ t.response.status = .ok) ∧
      ∃ t, exec (.parseResponse [0x12, 0x00, 0x00]) (recorded 0x11) = .next t ∧ t.response.status ≠ .ok := by
  refine ⟨⟨_, rfl, rfl⟩, ⟨_, rfl, by decide⟩, rfl, ⟨complete { pdu := some [0x83, 0x02] } (recorded 0x11), ?_, rfl⟩,
    ⟨_, rfl, by decide⟩⟩
  have h : crcOk config.crcByteOrder [0x11, 0x83, 0x02, 0xC1, 0x34] = true := by decide +kernel
  simp only [exec, execParseResponse, parsedResponse, h]
  rfl

end Sys2Proof.Tests
end

section
/-! PROOFS of the state family (10_state.md). First what every result of the model's pseudocode can be (the errors it
raises are those of R282), then the ways an instruction runs, then the obligations O53, O50, O52, O55, O56, O58, O6 and
O12. -/

namespace Sys2Proof.Machine

open Safety
open Laws.OpField (opOf)

/-! ### Outcomes allowed by R32 and R282 -/

/-- The error's detail is one that R282 pairs with its kind. -/
abbrev Error.Listed (e : Error) : Prop := e.detail ∈ detailsOf e.status

theorem Error.listed_slaveException (code : Byte) : (Error.slaveException code).Listed :=
  List.mem_singleton.mpr rfl

/-- Only a SlaveException carries an exception code (R280). -/
theorem Error.excCode_eq_zero {e : Error} (h : e.status ≠ .slaveException) : e.excCode = 0 := by
  cases e with
  | slaveException code => exact absurd rfl h
  | unsupportedFunction => rfl
  | invalidArgument => rfl
  | invalidRequestFrame => rfl
  | invalidResponseFrame => rfl

theorem legalResponse_errorResponse {e : Error} (h : e.Listed) : legalResponse (errorResponse e) :=
  ⟨h, Error.excCode_eq_zero, fun _ => ⟨rfl, rfl, rfl, rfl, rfl, rfl, rfl⟩⟩

theorem legalResponse_of_ok {r : Response} (hs : r.status = .ok) (hd : r.detail = .none) (hc : r.excCode = 0) :
    legalResponse r :=
  ⟨by simp [hs, hd, detailsOf], fun _ => hc, fun h => absurd hs h⟩

/-- A computation returns a value with `P` or raises a listed error. -/
def Yields {α : Type} (P : α → Prop) : Except Error α → Prop
  | .ok a => P a
  | .error e => e.Listed

/-- A computation raises no error but a listed one. -/
abbrev RaisesListed {α : Type} (x : Except Error α) : Prop := Yields (fun _ => True) x

section Yields

variable {α β : Type} {P : α → Prop} {Q : β → Prop}

theorem Yields.ok {a : α} (h : P a) : Yields P (.ok a) := h

theorem Yields.error {e : Error} (h : e.Listed) : Yields P (.error e) := h

theorem Yields.bind {x : Except Error α} {f : α → Except Error β} (hx : RaisesListed x) (hf : ∀ a, Yields Q (f a)) :
    Yields Q (x >>= f) := by
  cases x with
  | ok a => exact hf a
  | error e => exact hx

end Yields

/-- A range check that raises one listed error. -/
theorem raisesListed_ite {α : Type} {c : Prop} [Decidable c] {a : α} {e : Error} (h : e.Listed) :
    RaisesListed (if c then .ok a else .error e) := by
  split
  · exact .ok trivial
  · exact .error h

theorem field16_raisesListed (v : Int) : RaisesListed (field16 v) := raisesListed_ite (by decide)

theorem val16_raisesListed (v : Int) : RaisesListed (val16 v) := raisesListed_ite (by decide)

theorem byte8_raisesListed (v : Int) : RaisesListed (byte8 v) := raisesListed_ite (by decide)

theorem bc8_raisesListed (n : Nat) : RaisesListed (bc8 n) := raisesListed_ite (by decide)

theorem addr8_raisesListed (a : Int) : RaisesListed (addr8 a) := raisesListed_ite (by decide)

theorem assembleEach_raisesListed {field : Int → Except Error Bytes} (h : ∀ v, RaisesListed (field v)) (vs : List Int) :
    RaisesListed (assembleEach field vs) := by
  induction vs with
  | nil => exact .ok trivial
  | cons v vs ih => exact .bind (h v) fun _ => .bind ih fun _ => .ok trivial

theorem requestPdu_raisesListed (d : Descriptor) (o : EncodeOperands) : RaisesListed (requestPdu d o) := by
  unfold requestPdu
  cases d.requestLayout with
  | reqRead => exact .bind (field16_raisesListed _) fun _ => .bind (field16_raisesListed _) fun _ => .ok trivial
  | reqWsc => exact .bind (field16_raisesListed _) fun _ => .ok trivial
  | reqWsr => exact .bind (field16_raisesListed _) fun _ => .bind (val16_raisesListed _) fun _ => .ok trivial
  | reqFcOnly => exact .ok trivial
  | reqDiag =>
    exact .bind (field16_raisesListed _) fun _ => .bind (assembleEach_raisesListed byte8_raisesListed _) fun _ =>
      .ok trivial
  | reqWmc =>
    exact .bind (field16_raisesListed _) fun _ => .bind (field16_raisesListed _) fun _ =>
      .bind (bc8_raisesListed _) fun _ => .ok trivial
  | reqWmr =>
    exact .bind (field16_raisesListed _) fun _ => .bind (field16_raisesListed _) fun _ =>
      .bind (bc8_raisesListed _) fun _ => .bind (assembleEach_raisesListed val16_raisesListed _) fun _ => .ok trivial
  | reqRwmr =>
    exact .bind (field16_raisesListed _) fun _ => .bind (field16_raisesListed _) fun _ =>
      .bind (field16_raisesListed _) fun _ => .bind (field16_raisesListed _) fun _ =>
      .bind (bc8_raisesListed _) fun _ => .bind (assembleEach_raisesListed val16_raisesListed _) fun _ => .ok trivial

theorem encodeResults_yields (d : Descriptor) (o : EncodeOperands) : Yields legalResponse (encodeResults d o) :=
  .bind (requestPdu_raisesListed d o) fun _ => .ok (legalResponse_of_ok rfl rfl rfl)

theorem checkQuantity_raisesListed (d : Descriptor) (qty : Int) : RaisesListed (checkQuantity d qty) := by
  unfold checkQuantity
  split
  · exact .error (by decide)
  · exact .ok trivial

theorem checkException_raisesListed (p : Bytes) : RaisesListed (checkException p) := by
  unfold checkException
  split
  · exact .error (by decide)
  · split
    · split
      · exact .error (by decide)
      · exact .error (Error.listed_slaveException _)
    · exact .ok trivial

theorem readData_raisesListed (p : Bytes) : RaisesListed (readData p) := by
  unfold readData
  split
  · exact .error (by decide)
  · split
    · exact .error (by decide)
    · exact .ok trivial

theorem requireLayout_raisesListed (fits : Bool) : RaisesListed (requireLayout fits) := raisesListed_ite (by decide)

theorem decodePayload_raisesListed (layout : ResponseLayout) (p : Bytes) (q : Nat) :
    RaisesListed (decodePayload layout p q) := by
  cases layout with
  | rspBits => exact .bind (readData_raisesListed p) fun _ => .bind (requireLayout_raisesListed _) fun _ => .ok trivial
  | rspWords => exact .bind (readData_raisesListed p) fun _ => .bind (requireLayout_raisesListed _) fun _ => .ok trivial
  | rspEcho => exact .bind (requireLayout_raisesListed _) fun _ => .ok trivial
  | rspStatus => exact .bind (requireLayout_raisesListed _) fun _ => .ok trivial
  | rspDiag => exact .bind (requireLayout_raisesListed _) fun _ => .ok trivial

theorem decodeResults_yields (d : Descriptor) (qty : Int) (p : Bytes) : Yields legalResponse (decodeResults d qty p) :=
  .bind (checkQuantity_raisesListed d qty) fun _ => .bind (checkException_raisesListed p) fun _ =>
    .bind (decodePayload_raisesListed _ p _) fun _ => .ok (legalResponse_of_ok rfl rfl rfl)

theorem parsedResponse_yields (s : State) (f : Bytes) : Yields legalResponse (parsedResponse s f) := by
  unfold parsedResponse
  split_ifs
  · exact .error (by decide)
  · exact .error (by decide)
  · exact .error (by decide)
  · exact .error (by decide)
  · exact .ok (legalResponse_of_ok rfl rfl rfl)

theorem parsedRequest_yields (f : Bytes) : Yields legalResponse (parsedRequest f) := by
  unfold parsedRequest
  split_ifs
  · exact .error (by decide)
  · exact .error (by decide)
  · exact .ok (legalResponse_of_ok rfl rfl rfl)

/-! ### The ways an instruction runs -/

/-- What an instruction runs as: a command of the codec by a descriptor or with no descriptor, or one of the others. -/
inductive RunsAs : Instr → Prop where
  | encode {i : Instr} (d : Descriptor) (o : EncodeOperands) (h : ∀ s, exec i s = runEncode d o s) : RunsAs i
  | decode {i : Instr} (d : Descriptor) (qty : Int) (p : Bytes) (h : ∀ s, exec i s = runDecode d qty p s) :
    RunsAs i
  | unlisted {i : Instr} (h : ∀ s, exec i s = .next (raiseError .unsupportedFunction s)) : RunsAs i
  | crc16 (data : Bytes) : RunsAs (.crc16 data)
  | buildRequest (data : Bytes) (slave : Int) : RunsAs (.buildRequest data slave)
  | parseResponse (data : Bytes) : RunsAs (.parseResponse data)
  | parseRequest (data : Bytes) : RunsAs (.parseRequest data)
  | buildResponse (data : Bytes) : RunsAs (.buildResponse data)
  | reservedOp7 : RunsAs .reservedOp7

theorem runsAs_encode (fc : Int) (o : EncodeOperands) : RunsAs (.encode fc o) := by
  cases h : lookup fc with
  | none => exact .unlisted fun s => by simp [exec, execEncode, h]
  | some d => exact .encode d o fun s => by simp [exec, execEncode, h]

theorem runsAs_decode (fc qty : Int) (data : Bytes) : RunsAs (.decode fc qty data) := by
  cases h : lookup fc with
  | none => exact .unlisted fun s => by simp [exec, execDecode, h]
  | some d => exact .decode d qty data fun s => by simp [exec, execDecode, h]

theorem runsAs_exceptionRsp (fc qty : Int) (low : BitVec 7) (rest : Bytes) :
    RunsAs (.exceptionRsp fc qty low rest) := by
  cases h : lookup fc with
  | none => exact .unlisted fun s => by simp [exec, execExceptionRsp, h]
  | some d => exact .decode d qty (exceptionByte low :: rest) fun s => by simp [exec, execExceptionRsp, h]

/-- Every instruction runs in one of these ways: the request and response rows by the descriptor of their function. -/
theorem runsAs (i : Instr) : RunsAs i := by
  cases i with
  | readCoilsReq start qty lenOvr => exact .encode readCoils { start, qty, lenOvr } fun _ => rfl
  | readDiscreteInputsReq start qty lenOvr => exact .encode readDiscreteInputs { start, qty, lenOvr } fun _ => rfl
  | readHoldingRegistersReq start qty lenOvr => exact .encode readHoldingRegisters { start, qty, lenOvr } fun _ => rfl
  | readInputRegistersReq start qty lenOvr => exact .encode readInputRegisters { start, qty, lenOvr } fun _ => rfl
  | writeSingleCoilReq start value lenOvr => exact .encode writeSingleCoil { start, value, lenOvr } fun _ => rfl
  | writeSingleRegisterReq start value lenOvr =>
    exact .encode writeSingleRegister { start, value, lenOvr } fun _ => rfl
  | readExceptionStatusReq lenOvr => exact .encode readExceptionStatus { lenOvr } fun _ => rfl
  | diagnosticReq start values lenOvr => exact .encode diagnostic { start, values, lenOvr } fun _ => rfl
  | writeMultipleCoilsReq start qty values lenOvr =>
    exact .encode writeMultipleCoils { start, qty, values, lenOvr } fun _ => rfl
  | writeMultipleRegistersReq start qty values lenOvr =>
    exact .encode writeMultipleRegisters { start, qty, values, lenOvr } fun _ => rfl
  | readWriteMultipleRegistersReq start qty waddr values lenOvr =>
    exact .encode readWriteMultipleRegisters { start, qty, waddr, values, lenOvr } fun _ => rfl
  | readCoilsRsp | readDiscreteInputsRsp | readHoldingRegistersRsp | readInputRegistersRsp | writeSingleCoilRsp
  | writeSingleRegisterRsp | readExceptionStatusRsp | diagnosticRsp | writeMultipleCoilsRsp | writeMultipleRegistersRsp
  | readWriteMultipleRegistersRsp => exact .decode _ _ _ fun _ => rfl
  | exceptionRsp fc qty low rest => exact runsAs_exceptionRsp fc qty low rest
  | encode fc o => exact runsAs_encode fc o
  | decode fc qty data => exact runsAs_decode fc qty data
  | crc16 data => exact .crc16 data
  | buildRequest data slave => exact .buildRequest data slave
  | parseResponse data => exact .parseResponse data
  | parseRequest data => exact .parseRequest data
  | buildResponse data => exact .buildResponse data
  | reservedOp7 => exact .reservedOp7

/-! ### What a completed instruction leaves -/

theorem finish_response_legal {r : Except Error Response} (hr : Yields legalResponse r) {s t : State}
    (h : finish r s = .next t) : legalResponse t.response := by
  cases r with
  | ok out => cases h; exact hr
  | error e => cases h; exact legalResponse_errorResponse hr

theorem exec_buildRequest_ok {data : Bytes} {slave : Int} {a : Byte} (h : addr8 slave = .ok a) (s : State) :
    exec (.buildRequest data slave) s =
      .next (complete { frame := some (buildFrame config.crcByteOrder a data) } (recordAddress a s)) := by
  simp [exec, execBuildRequest, h]

theorem exec_buildRequest_error {data : Bytes} {slave : Int} {e : Error} (h : addr8 slave = .error e) (s : State) :
    exec (.buildRequest data slave) s = .next (raiseError e s) := by
  simp [exec, execBuildRequest, h]

theorem exec_parseRequest_ok {data : Bytes} {r : Response} (h : parsedRequest data = .ok r) (s : State) :
    exec (.parseRequest data) s = .next (complete r (recordAddress (byteAt data 0) s)) := by
  simp [exec, execParseRequest, h]

theorem exec_parseRequest_error {data : Bytes} {e : Error} (h : parsedRequest data = .error e) (s : State) :
    exec (.parseRequest data) s = .next (raiseError e s) := by
  simp [exec, execParseRequest, h]

theorem exec_buildResponse_invalid {s : State} (h : s.lastValid = false) (data : Bytes) :
    exec (.buildResponse data) s = .next (raiseError (.invalidArgument .noRequest) s) := by
  simp [exec, execBuildResponse, h]

theorem exec_buildResponse_valid {s : State} (h : s.lastValid = true) (data : Bytes) :
    exec (.buildResponse data) s =
      .next (complete { frame := some (buildFrame config.crcByteOrder s.lastAddr data) } s) := by
  simp [exec, execBuildResponse, h]

/-- Whatever completes answers an outcome that R32 and R282 allow. -/
theorem exec_response_legal {i : Instr} {s t : State} (h : exec i s = .next t) : legalResponse t.response := by
  cases runsAs i with
  | encode d o hi =>
    rw [hi, runEncode] at h
    split at h
    · exact finish_response_legal (encodeResults_yields d o) h
    · cases h
  | decode d qty p hi =>
    rw [hi] at h
    exact finish_response_legal (decodeResults_yields d qty p) h
  | unlisted hi =>
    rw [hi] at h
    cases h
    exact legalResponse_errorResponse (by decide)
  | crc16 data => exact finish_response_legal (.ok (legalResponse_of_ok rfl rfl rfl)) h
  | buildRequest data slave =>
    have listed := addr8_raisesListed slave
    cases ha : addr8 slave with
    | ok a =>
      cases (exec_buildRequest_ok ha s).symm.trans h
      exact legalResponse_of_ok rfl rfl rfl
    | error e =>
      cases (exec_buildRequest_error ha s).symm.trans h
      rw [ha] at listed
      exact legalResponse_errorResponse listed
  | parseResponse data => exact finish_response_legal (parsedResponse_yields s data) h
  | parseRequest data =>
    have legal := parsedRequest_yields data
    cases hp : parsedRequest data with
    | ok r =>
      cases (exec_parseRequest_ok hp s).symm.trans h
      rw [hp] at legal
      exact legal
    | error e =>
      cases (exec_parseRequest_error hp s).symm.trans h
      rw [hp] at legal
      exact legalResponse_errorResponse legal
  | buildResponse data =>
    cases hv : s.lastValid with
    | false =>
      cases (exec_buildResponse_invalid hv data).symm.trans h
      exact legalResponse_errorResponse (by decide)
    | true =>
      cases (exec_buildResponse_valid hv data).symm.trans h
      exact legalResponse_of_ok rfl rfl rfl
  | reservedOp7 => cases h

/-- An address byte is the address it was assembled from (R87 ADDR8). -/
theorem addr8_toNat {slave : Int} {a : Byte} (h : addr8 slave = .ok a) : (a.toNat : Int) = slave := by
  unfold addr8 at h
  split at h
  · cases h
    rw [BitVec.toNat_ofInt]
    omega
  · cases h

/-- Settles O50: by what `exec_cases` says an instruction can do. -/
theorem onlyRequestsWriteTheRegister : Obligations.OnlyRequestsWriteTheRegister := by
  intro i s t h
  rcases exec_cases i s with ⟨out, hi⟩ | ⟨a, out, hok, hi, hreq⟩ | ⟨r, hi⟩
  · cases hi.symm.trans h
    exact ⟨rfl, rfl, .inl ⟨rfl, rfl⟩⟩
  · cases hi.symm.trans h
    refine ⟨rfl, rfl, .inr ⟨rfl, hok, ?_⟩⟩
    rcases hreq with ⟨data, slave, rfl, ha⟩ | ⟨data, rfl, -, hout⟩
    · exact .inl ⟨data, slave, rfl, addr8_toNat ha⟩
    · exact .inr ⟨data, rfl, hout⟩
  · cases hi.symm.trans h

/-- A completed command leaves LAST_VALID alone or sets it. -/
theorem exec_lastValid_mono {i : Instr} {s t : State} (h : exec i s = .next t) (hs : s.lastValid = true) :
    t.lastValid = true := by
  obtain ⟨-, -, ⟨-, hv⟩ | ⟨hv, -⟩⟩ := onlyRequestsWriteTheRegister i s t h
  · exact hv.trans hs
  · exact hv

/-- Settles O53: from any state, a command that completes has a legal outcome and counts one, and a reset gives the reset
outcome and no address; so the step needs nothing of the invariant before it. -/
theorem stepKeepsTheInvariant : Obligations.StepKeepsTheInvariant := by
  intro s t _ h
  rcases step_cases s with ⟨-, hs⟩ | ⟨rest, -, hs⟩ | ⟨c, rest, -, hs⟩
  · cases hs.symm.trans h
  · cases hs.symm.trans h
    exact ⟨legalResponse_of_ok rfl rfl rfl, fun hv => nomatch hv⟩
  · rw [hs] at h
    obtain ⟨hindex, -⟩ := onlyRequestsWriteTheRegister _ _ _ h
    exact ⟨exec_response_legal h, fun _ => hindex ▸ Nat.succ_pos _⟩

/-! ### What an outcome depends on -/

/-- Whenever the first of two runs of a command completes, so does the second, with the same outcome. -/
def AnswersAs (x y : Host.Outcome State Fault Refusal) : Prop :=
  ∀ t, x = .next t → ∃ v, y = .next v ∧ v.response = t.response

theorem answersAs_next {t v : State} (h : v.response = t.response) : AnswersAs (.next t) (.next v) := by
  rintro _ ⟨⟩
  exact ⟨v, rfl, h⟩

theorem finish_answersAs (r : Except Error Response) (s u : State) : AnswersAs (finish r s) (finish r u) := by
  obtain ⟨out, hout⟩ := finish_completes r
  rw [hout s, hout u]
  exact answersAs_next rfl

theorem runEncode_answersAs (d : Descriptor) (o : EncodeOperands) (s u : State) :
    AnswersAs (runEncode d o s) (runEncode d o u) := by
  rcases runEncode_cases d o with ⟨-, out, hout⟩ | ⟨-, hrefused⟩
  · rw [hout s, hout u]
    exact answersAs_next rfl
  · rw [hrefused s]
    exact fun _ h => nomatch h

theorem buildRequest_answersAs (data : Bytes) (slave : Int) (s u : State) :
    AnswersAs (exec (.buildRequest data slave) s) (exec (.buildRequest data slave) u) := by
  cases h : addr8 slave with
  | ok a =>
    rw [exec_buildRequest_ok h, exec_buildRequest_ok h]
    exact answersAs_next rfl
  | error e =>
    rw [exec_buildRequest_error h, exec_buildRequest_error h]
    exact answersAs_next rfl

theorem parseRequest_answersAs (data : Bytes) (s u : State) :
    AnswersAs (exec (.parseRequest data) s) (exec (.parseRequest data) u) := by
  cases h : parsedRequest data with
  | ok r =>
    rw [exec_parseRequest_ok h, exec_parseRequest_ok h]
    exact answersAs_next rfl
  | error e =>
    rw [exec_parseRequest_error h, exec_parseRequest_error h]
    exact answersAs_next rfl

/-- The checks of PARSE_RESPONSE read the register alone. -/
theorem parsedResponse_congr {s u : State} (ha : s.lastAddr = u.lastAddr) (hv : s.lastValid = u.lastValid) (f : Bytes) :
    parsedResponse s f = parsedResponse u f := by
  simp only [parsedResponse, ha, hv]

theorem buildResponse_answersAs {s u : State} (ha : s.lastAddr = u.lastAddr) (hv : s.lastValid = u.lastValid)
    (data : Bytes) : AnswersAs (exec (.buildResponse data) s) (exec (.buildResponse data) u) := by
  cases h : s.lastValid with
  | false =>
    rw [exec_buildResponse_invalid h, exec_buildResponse_invalid (hv.symm.trans h)]
    exact answersAs_next rfl
  | true =>
    rw [exec_buildResponse_valid h, exec_buildResponse_valid (hv.symm.trans h), ha]
    exact answersAs_next rfl

/-- Settles O52: only the two commands that read the register need the hypothesis that it is the same. -/
theorem outcomeDependsOnlyOnTheRegister : Obligations.OutcomeDependsOnlyOnTheRegister := by
  intro i s u t h hsame
  suffices hi : AnswersAs (exec i s) (exec i u) from hi t h
  cases runsAs i with
  | encode d o hi =>
    rw [hi, hi]
    exact runEncode_answersAs d o s u
  | decode d qty p hi =>
    rw [hi, hi]
    exact finish_answersAs _ s u
  | unlisted hi =>
    rw [hi, hi]
    exact answersAs_next rfl
  | crc16 data => exact answersAs_next rfl
  | buildRequest data slave => exact buildRequest_answersAs data slave s u
  | parseRequest data => exact parseRequest_answersAs data s u
  | parseResponse data =>
    obtain ⟨ha, hv⟩ | ⟨hne, -⟩ := hsame
    · change AnswersAs (finish (parsedResponse s data) s) (finish (parsedResponse u data) u)
      rw [parsedResponse_congr ha hv]
      exact finish_answersAs _ s u
    · exact absurd rfl (hne data)
  | buildResponse data =>
    obtain ⟨ha, hv⟩ | ⟨-, hne⟩ := hsame
    · exact buildResponse_answersAs ha hv data
    · exact absurd rfl (hne data)
  | reservedOp7 => cases h

/-! ### Reset and the recorded address -/

/-- Settles O55: the last clause because a command never clears LAST_VALID. -/
theorem resetClearsTheBlock : Obligations.ResetClearsTheBlock := by
  refine ⟨rfl, rfl, fun s rest hport => ?_, fun s t h hs ht => ?_⟩
  · exact ⟨{ State.reset with port := rest }, by simp [step, hport], rfl, rfl, rfl⟩
  · rcases step_cases s with ⟨-, hstep⟩ | ⟨rest, hport, -⟩ | ⟨c, rest, -, hstep⟩
    · cases hstep.symm.trans h
    · rw [hport, List.head?_cons]
    · have hkept : t.lastValid = true := exec_lastValid_mono (hstep.symm.trans h) hs
      simp [ht] at hkept

theorem opOf_decodeEncode (c : Command) : opOf (decodeEncode c) = 1 := by
  simp only [decodeEncode, apply_ite opOf]
  simp only [opOf, ite_self]

theorem opOf_decodeNormalDecode (c : Command) : opOf (decodeNormalDecode c) = 2 := by
  simp only [decodeNormalDecode, apply_ite opOf]
  simp only [opOf, ite_self]

theorem opOf_decodeDecode (c : Command) : opOf (decodeDecode c) = 2 := by
  unfold decodeDecode
  split
  · exact opOf_decodeNormalDecode c
  · split
    · rfl
    · exact opOf_decodeNormalDecode c

theorem op_cases (op : BitVec 3) :
    op = 0 ∨ op = 1 ∨ op = 2 ∨ op = 3 ∨ op = 4 ∨ op = 5 ∨ op = 6 ∨ op = 7 := by
  revert op
  decide

/-- A record decodes to an instruction of its own OP (R80). -/
theorem opOf_decode (c : Command) : opOf (decode c) = c.op := by
  rcases op_cases c.op with h | h | h | h | h | h | h | h <;>
    simp [decode, h, opOf_decodeEncode, opOf_decodeDecode] <;> rfl

/-- BUILD_REQUEST and PARSE_REQUEST (R33). -/
def IsRequest (i : Instr) : Prop := (∃ data slave, i = .buildRequest data slave) ∨ ∃ data, i = .parseRequest data

theorem isRequest_iff_opOf (i : Instr) : IsRequest i ↔ opOf i = 3 ∨ opOf i = 5 := by
  cases i <;> simp [IsRequest, opOf]

theorem isRequest_decode_iff (c : Command) : IsRequest (decode c) ↔ c.op = 3 ∨ c.op = 5 := by
  rw [isRequest_iff_opOf, opOf_decode]

/-- A request that completes with STATUS OK has set LAST_VALID. -/
theorem IsRequest.lastValid_of_ok {i : Instr} (hi : IsRequest i) {s t : State} (h : exec i s = .next t)
    (hok : t.response.status = .ok) : t.lastValid = true := by
  rcases hi with ⟨data, slave, rfl⟩ | ⟨data, rfl⟩
  · cases ha : addr8 slave with
    | ok a =>
      cases (exec_buildRequest_ok ha s).symm.trans h
      rfl
    | error e =>
      cases (exec_buildRequest_error ha s).symm.trans h
      exact absurd hok (error_status_ne_ok e)
  · cases hp : parsedRequest data with
    | ok r =>
      cases (exec_parseRequest_ok hp s).symm.trans h
      rfl
    | error e =>
      cases (exec_parseRequest_error hp s).symm.trans h
      exact absurd hok (error_status_ne_ok e)

/-- What one command does to LAST_VALID: it stays 1, or a request that succeeds makes it 1. -/
theorem exec_lastValid_iff {i : Instr} {s t : State} (h : exec i s = .next t) :
    t.lastValid = true ↔ s.lastValid = true ∨ IsRequest i ∧ t.response.status = .ok := by
  constructor
  · intro ht
    obtain ⟨-, -, ⟨-, hv⟩ | ⟨-, hok, hreq⟩⟩ := onlyRequestsWriteTheRegister i s t h
    · exact .inl (hv.symm.trans ht)
    · rcases hreq with ⟨data, slave, hi, -⟩ | ⟨data, hi, -⟩
      · exact .inr ⟨.inl ⟨data, slave, hi⟩, hok⟩
      · exact .inr ⟨.inr ⟨data, hi⟩, hok⟩
  · rintro (hs | ⟨hi, hok⟩)
    · exact exec_lastValid_mono h hs
    · exact hi.lastValid_of_ok h hok

/-- A run of one command and more is observed as that command's outcome before the observation of the rest (R321). -/
theorem observe_cons_next {c : Command} {cs : List Command} {s : State} {o : Observation}
    (h : observe (c :: cs) s = .next o) :
    ∃ t rest, exec (decode c) s = .next t ∧ observe cs t = .next rest ∧
      o = { rest with outcomes := t.response :: rest.outcomes } := by
  unfold observe issue at h
  split at h
  · cases h
  · cases h
  · rename_i t ht
    split at h
    · cases h
    · cases h
    · rename_i rest hrest
      cases h
      exact ⟨t, rest, ht, hrest, rfl⟩

/-- Some BUILD_REQUEST or PARSE_REQUEST among commands paired with their outcomes has STATUS OK. -/
abbrev SomeRequestSucceeded (crs : List (Command × Response)) : Prop :=
  ∃ cr ∈ crs, (cr.1.op = 3 ∨ cr.1.op = 5) ∧ cr.2.status = .ok

/-- LAST_VALID after a run from any state: it was 1 before, or some request of the run succeeded. -/
theorem observe_lastValid_iff {cs : List Command} {s : State} {o : Observation} (h : observe cs s = .next o) :
    o.lastValid = true ↔ s.lastValid = true ∨ SomeRequestSucceeded (cs.zip o.outcomes) := by
  induction cs generalizing s o with
  | nil =>
    cases h
    simp
  | cons c cs ih =>
    obtain ⟨t, rest, ht, hrest, rfl⟩ := observe_cons_next h
    calc rest.lastValid = true
      _ ↔ t.lastValid = true ∨ SomeRequestSucceeded (cs.zip rest.outcomes) := ih hrest
      _ ↔ (s.lastValid = true ∨ (c.op = 3 ∨ c.op = 5) ∧ t.response.status = .ok) ∨
            SomeRequestSucceeded (cs.zip rest.outcomes) := by rw [exec_lastValid_iff ht, isRequest_decode_iff]
      _ ↔ s.lastValid = true ∨ SomeRequestSucceeded ((c, t.response) :: cs.zip rest.outcomes) := by
        rw [or_assoc, SomeRequestSucceeded, SomeRequestSucceeded, List.exists_mem_cons_iff]

/-- PARSE_RESPONSE of a frame with no address recorded (R312). -/
theorem parsedResponse_noRequest {s : State} (hs : s.lastValid = false) {f : Bytes} (hf : 3 ≤ f.length) :
    parsedResponse s f = .error (.invalidResponseFrame .noRequest) := by
  rw [parsedResponse, if_neg (Nat.not_lt.mpr hf), if_pos hs]

/-- Settles O56: reset has LAST_VALID 0, so only the run can have set it. -/
theorem addressIsRecordedOnceARequestSucceeds : Obligations.AddressIsRecordedOnceARequestSucceeds := by
  refine ⟨fun cs o h => ?_, fun s data hs => ⟨exec_buildResponse_invalid hs data, fun hlen => ?_⟩⟩
  · have hreset : ¬State.reset.lastValid = true := Bool.false_ne_true
    rw [observe_lastValid_iff h, or_iff_right hreset]
  · change finish (parsedResponse s data) s = _
    rw [parsedResponse_noRequest hs hlen]
    rfl

/-! ### Several blocks, the step of a record, and the descriptor table -/

/-- When block `k` of a system makes a step, the system holds that block's own next state in its place (R39). -/
theorem stepAt_next {k : Nat} {y z : System} (h : System.stepAt k y = some (.next z)) :
    ∃ s t, y.instances[k]? = some s ∧ step s = .next t ∧ z.instances = y.instances.set k t := by
  unfold System.stepAt at h
  split at h
  · cases h
  · rename_i s hs
    split at h
    · rename_i t ht
      cases h
      exact ⟨s, t, hs, ht, rfl⟩
    · cases h
    · cases h

/-- Settles O58: setting one place of the list leaves its length and the other places. -/
theorem instancesAreIndependent : Obligations.InstancesAreIndependent := by
  intro k y z h
  obtain ⟨s, t, hs, ht, hz⟩ := stepAt_next h
  obtain ⟨hk, -⟩ := List.getElem?_eq_some_iff.mp hs
  refine ⟨?_, fun j hj => ?_, s, t, hs, ht, ?_⟩
  · rw [hz, List.length_set]
  · rw [hz, List.getElem?_set_ne hj.symm]
  · rw [hz, List.getElem?_set_self hk]

/-- `lookup` succeeds exactly for the eleven function codes of R83. -/
theorem lookup_isSome_iff (fc : Int) : (lookup fc).isSome = true ↔ fc ∈ supported := by
  rcases lookup_cases fc with ⟨hnone, hfc⟩ | hfc
  · simp [hnone, supported, hfc]
  · rcases hfc with rfl | rfl | rfl | rfl | rfl | rfl | rfl | rfl | rfl | rfl | rfl <;> simp [supported]

theorem not_mem_supported_of_lookup_isNone {fc : Int} (h : (lookup fc).isNone = true) : fc ∉ supported := by
  rw [← lookup_isSome_iff, Option.isNone_iff_eq_none.mp h]
  exact Bool.false_ne_true

theorem decodeDecode_of_not_exception {c : Command} (h : isException c.data = false) :
    decodeDecode c = decodeNormalDecode c := by
  unfold decodeDecode
  split
  · rfl
  · simp [h]

theorem decodeDecode_of_unlisted {c : Command} (h : lookup c.fc = none) : decodeDecode c = decodeNormalDecode c := by
  unfold decodeDecode
  split
  · rfl
  · simp [h]

theorem isException_exceptionByte (low : BitVec 7) (rest : Bytes) : isException (exceptionByte low :: rest) = true := by
  simp [isException, exceptionByte]

theorem exceptionByte_low (low : BitVec 7) : (exceptionByte low).extractLsb' 0 7 = low := by
  revert low
  decide

/-- The record of a well-formed instruction decodes to it: a row by its function code, an EXCEPTION row by its first
byte, and a general command because its function code is none of the eleven. -/
theorem decode_encode_of_wellFormed {i : Instr} (h : wellFormed i = true) : decode (encode i) = i := by
  cases i with
  | readCoilsReq | readDiscreteInputsReq | readHoldingRegistersReq | readInputRegistersReq | writeSingleCoilReq
  | writeSingleRegisterReq | readExceptionStatusReq | diagnosticReq | writeMultipleCoilsReq | writeMultipleRegistersReq
  | readWriteMultipleRegistersReq => simp [encode, decode, decodeEncode]
  | readCoilsRsp | readDiscreteInputsRsp | readHoldingRegistersRsp | readInputRegistersRsp | writeSingleCoilRsp
  | writeSingleRegisterRsp | readExceptionStatusRsp | diagnosticRsp | writeMultipleCoilsRsp | writeMultipleRegistersRsp
  | readWriteMultipleRegistersRsp =>
    have hnot := Bool.not_eq_true' _ |>.mp h
    simp [encode, decode, decodeDecode_of_not_exception, hnot, decodeNormalDecode]
  | exceptionRsp fc qty low rest =>
    have hlisted : (lookup fc).isSome = true := h
    simp [encode, decode, decodeDecode, isException_exceptionByte, hlisted, exceptionByte_low]
  | encode fc o =>
    have hfc := not_mem_supported_of_lookup_isNone h
    simp only [supported, List.mem_cons, List.not_mem_nil, or_false, not_or] at hfc
    simp [encode, decode, decodeEncode, hfc]
  | decode fc qty data =>
    have hfc := not_mem_supported_of_lookup_isNone h
    have hnone : lookup fc = none := Option.isNone_iff_eq_none.mp h
    simp only [supported, List.mem_cons, List.not_mem_nil, or_false, not_or] at hfc
    simp [encode, decode, decodeDecode_of_unlisted, hnone, decodeNormalDecode, hfc]
  | crc16 | buildRequest | parseResponse | parseRequest | buildResponse | reservedOp7 => rfl

/-- Settles O6: by the equations of `step` and, for records, `decode_encode_of_wellFormed`. -/
theorem stepRunsDecodedInstruction : Obligations.StepRunsDecodedInstruction := by
  have hcommand (s : State) (c : Command) (rest : List HostAction) (hport : s.port = .command c :: rest) :
      step s = exec (decode c) { s with port := rest } := by simp only [step, hport]
  refine ⟨hcommand, fun s i rest hi hport => ?_, fun s hport => by simp only [step, hport]⟩
  rw [hcommand s _ rest hport, decode_encode_of_wellFormed hi]

/-- Settles O12: the table by computation, the lookup by `lookup_isSome_iff`. -/
theorem descriptorTableHasElevenFunctions : Obligations.DescriptorTableHasElevenFunctions := by
  refine ⟨rfl, by decide, lookup_isSome_iff, fun f => ?_⟩
  cases f <;> simp [Family.readFlag]

end Sys2Proof.Machine
end

section
/-! PROOFS of the memory family (20_memory.md). First the bytes of packed coils and the values of unpacked ones, then
every bit of packed coils at once, coil or pad, from which O40 follows. -/

namespace Sys2Proof.Machine

theorem packBits_getD_of_lt {bits : List Int} {j : Nat} (h : j < ceil8 bits.length) :
    (packBits bits).getD j 0 = packByte bits j := by
  rw [List.getD_eq_getElem _ _ (by simpa using h)]
  simp [packBits]

theorem unpackBits_getD_of_lt {q k : Nat} (d : Bytes) (h : k < q) : (unpackBits q d).getD k 0 = bitAt d k := by
  rw [List.getD_eq_getElem _ _ (by simpa using h)]
  simp [unpackBits]

/-- Every bit of packed coils, the pad bits and the bytes past the data included: it is set exactly where the list holds
a coil that is not 0 (R64, R87). -/
theorem packBits_getLsbD (bits : List Int) (k : Nat) :
    ((packBits bits).getD (k / 8) 0).getLsbD (k % 8) = !decide (bits.getD k 0 = 0) := by
  by_cases h : k / 8 < ceil8 bits.length
  · rw [packBits_getD_of_lt h, packByte_getLsbD _ _ _ (Nat.mod_lt _ (by decide)), Nat.div_add_mod]
  · have hpast : bits.length ≤ k := by
      unfold ceil8 at h
      omega
    rw [List.getD_eq_default _ _ (by simpa using h), List.getD_eq_default _ _ hpast]
    simp

/-- Settles O40: packing is `packBits_getLsbD`, read inside the list and past its end, and unpacking is `bitAt_eq`. -/
theorem packedCoilBitOrder : Obligations.PackedCoilBitOrder := by
  refine ⟨fun bits hbits => ⟨packBits_length bits, fun k hk => ?_, fun k hk => ?_⟩,
    fun q data => ⟨unpackBits_length q data, fun k hk => ?_⟩⟩
  · have hcoil : bits.getD k 0 = 0 ∨ bits.getD k 0 = 1 := by
      rw [List.getD_eq_getElem _ _ hk]
      exact hbits _ (List.getElem_mem hk)
    rw [packBits_getLsbD]
    rcases hcoil with h | h <;> rw [h] <;> rfl
  · rw [packBits_getLsbD, List.getD_eq_default _ _ hk]
    rfl
  · rw [unpackBits_getD_of_lt data hk, bitAt_eq]

end Sys2Proof.Machine
end

section
/-! PROOFS of the encoding family (30_encoding.md). First records and the rows they decode to (O1, O2, O3, O24, O36, O48
and the words of the opcode table), then the bytes of the request layouts, from which O4 and O5 follow, and last the
frames and the pseudo-commands REQUEST and RESPONSE (O59). -/

namespace Sys2Proof.Machine

open Safety

/-! ### Records and their rows -/

/-- Settles O1, by `decode_encode_of_wellFormed`. -/
theorem decodeOfEncodedInstruction : Obligations.DecodeOfEncodedInstruction :=
  fun _ h => decode_encode_of_wellFormed h

theorem exists_lookup_of_mem_supported {fc : Int} (h : fc ∈ supported) : ∃ d, lookup fc = some d :=
  Option.isSome_iff_exists.mp ((lookup_isSome_iff fc).mpr h)

theorem wellFormed_decodeEncode (c : Command) : wellFormed (decodeEncode c) = true := by
  rcases lookup_cases c.fc with ⟨hnone, hfc⟩ | hfc
  · simp [decodeEncode, hfc, wellFormed, hnone]
  · rcases hfc with h | h | h | h | h | h | h | h | h | h | h <;> simp [decodeEncode, h, wellFormed]

/-- A DECODE record is its function's row when its PDU is no exception response, and stays general when its function
code is unlisted. -/
theorem wellFormed_decodeNormalDecode {c : Command} (h : lookup c.fc = none ∨ isException c.data = false) :
    wellFormed (decodeNormalDecode c) = true := by
  rcases lookup_cases c.fc with ⟨hnone, hfc⟩ | hfc
  · simp [decodeNormalDecode, hfc, wellFormed, hnone]
  · obtain ⟨d, hd⟩ := exists_lookup_of_mem_supported (fc := c.fc) (by simpa [supported] using hfc)
    have hdata : isException c.data = false := h.resolve_left (by simp [hd])
    rcases hfc with h | h | h | h | h | h | h | h | h | h | h <;> simp [decodeNormalDecode, h, wellFormed, hdata]

theorem decodeDecode_of_exception {c : Command} {b : Byte} {rest : Bytes} (hdata : c.data = b :: rest)
    (hlisted : (lookup c.fc).isSome = true) (hbit : b.getLsbD 7 = true) :
    decodeDecode c = .exceptionRsp c.fc c.qty (b.extractLsb' 0 7) rest := by
  cases c
  cases hdata
  exact if_pos (Bool.and_eq_true_iff.mpr ⟨hlisted, hbit⟩)

/-- A DECODE record decodes to the EXCEPTION row, when its function code is listed and its PDU's first byte has bit 7
set, and as a normal DECODE otherwise (R86, R90). -/
theorem decodeDecode_cases (c : Command) :
    (decodeDecode c = decodeNormalDecode c ∧ (lookup c.fc = none ∨ isException c.data = false)) ∨
    ∃ b rest, c.data = b :: rest ∧ (lookup c.fc).isSome = true ∧ b.getLsbD 7 = true ∧
      decodeDecode c = .exceptionRsp c.fc c.qty (b.extractLsb' 0 7) rest := by
  cases hlookup : lookup c.fc with
  | none => exact .inl ⟨decodeDecode_of_unlisted hlookup, .inl rfl⟩
  | some d =>
    cases hexc : isException c.data with
    | false => exact .inl ⟨decodeDecode_of_not_exception hexc, .inr rfl⟩
    | true =>
      obtain ⟨b, rest, hdata⟩ : ∃ b rest, c.data = b :: rest :=
        List.exists_cons_of_ne_nil fun hnil => by simp [hnil, isException] at hexc
      have hbit : b.getLsbD 7 = true := by rwa [hdata] at hexc
      exact .inr ⟨b, rest, hdata, rfl, hbit, decodeDecode_of_exception hdata (by simp [hlookup]) hbit⟩

theorem wellFormed_decodeDecode (c : Command) : wellFormed (decodeDecode c) = true := by
  rcases decodeDecode_cases c with ⟨hnormal, h⟩ | ⟨b, rest, -, hlisted, -, hrow⟩
  · rw [hnormal]
    exact wellFormed_decodeNormalDecode h
  · rw [hrow]
    exact hlisted

/-- Settles O2: only ENCODE and DECODE have more than one spelling, so the other six OPs are by computation. -/
theorem decodedCommandIsWellFormed : Obligations.DecodedCommandIsWellFormed := by
  intro c
  unfold decode
  split
  · rfl
  · exact wellFormed_decodeEncode c
  · exact wellFormed_decodeDecode c
  all_goals rfl

/-- Settles O48, whatever the other fields of the record are. -/
theorem reservedOpIsRefused : Obligations.ReservedOpIsRefused := by
  intro c s hop
  have hdecode : decode c = .reservedOp7 := by simp [decode, hop]
  exact ⟨hdecode, by rw [hdecode]; rfl⟩

/-! ### The general ENCODE and DECODE -/

theorem exec_encode_listed {fc : Int} {d : Descriptor} (h : lookup fc = some d) (o : EncodeOperands) (s : State) :
    exec (.encode fc o) s = runEncode d o s := by
  simp [exec, execEncode, h]

theorem exec_encode_unlisted {fc : Int} (h : lookup fc = none) (o : EncodeOperands) (s : State) :
    exec (.encode fc o) s = .next (raiseError .unsupportedFunction s) := by
  simp [exec, execEncode, h]

theorem exec_decode_listed {fc : Int} {d : Descriptor} (h : lookup fc = some d) (qty : Int) (p : Bytes) (s : State) :
    exec (.decode fc qty p) s = runDecode d qty p s := by
  simp [exec, execDecode, h]

theorem exec_decode_unlisted {fc : Int} (h : lookup fc = none) (qty : Int) (p : Bytes) (s : State) :
    exec (.decode fc qty p) s = .next (raiseError .unsupportedFunction s) := by
  simp [exec, execDecode, h]

/-- The EXCEPTION row is the DECODE of its PDU, for every function code (R86, R202). -/
theorem exec_exceptionRsp (fc qty : Int) (low : BitVec 7) (rest : Bytes) (s : State) :
    exec (.exceptionRsp fc qty low rest) s = exec (.decode fc qty (exceptionByte low :: rest)) s := rfl

theorem lookup_eq_none_of_not_mem_supported {fc : Int} (h : fc ∉ supported) : lookup fc = none := by
  rw [← Option.not_isSome_iff_eq_none, lookup_isSome_iff]
  exact h

/-- Settles O24: the lookup fails before anything else is read. -/
theorem unlistedFunctionCodeIsUnsupported : Obligations.UnlistedFunctionCodeIsUnsupported := by
  intro fc hfc s o qty data low rest
  have hnone := lookup_eq_none_of_not_mem_supported hfc
  exact ⟨exec_encode_unlisted hnone o s, exec_decode_unlisted hnone qty data s, exec_decode_unlisted hnone qty _ s⟩

/-- ENCODE by a descriptor does not read the operands its row drops (D31): each function's row runs as the general
ENCODE. -/
theorem exec_decodeEncode (c : Command) (s : State) :
    exec (decodeEncode c) s = exec (.encode c.fc { start := c.start, qty := c.qty, value := c.value, values := c.values,
                                                   waddr := c.waddr, lenOvr := c.lenOvr }) s := by
  rcases lookup_cases c.fc with ⟨-, hfc⟩ | hfc
  · simp [decodeEncode, hfc]
  · obtain ⟨d, hd⟩ := exists_lookup_of_mem_supported (fc := c.fc) (by simpa [supported] using hfc)
    rw [exec_encode_listed hd]
    rcases hfc with h | h | h | h | h | h | h | h | h | h | h <;>
      (rw [h] at hd; cases hd; simp only [decodeEncode, h]; rfl)

theorem mem_descriptorTable_of_lookup {fc : Int} {d : Descriptor} (h : lookup fc = some d) : d ∈ descriptorTable :=
  List.mem_of_find?_eq_some h

/-- The functions that do not decode by a quantity have one of the three response layouts without a count (R83, R85). -/
theorem responseLayout_of_not_readFlag :
    ∀ d ∈ descriptorTable, d.family.readFlag = false → d.responseLayout ∈ [.rspEcho, .rspStatus, .rspDiag] := by decide

/-- DECODE of a function that does not decode by a quantity ignores QTY (R200). -/
theorem runDecode_qty_ignored {fc : Int} {d : Descriptor} (h : lookup fc = some d) (qty : Int) (p : Bytes) (s : State) :
    runDecode d (if d.family.readFlag then qty else 0) p s = runDecode d qty p s := by
  cases hflag : d.family.readFlag with
  | true => rfl
  | false =>
    have hlayout := responseLayout_of_not_readFlag d (mem_descriptorTable_of_lookup h) hflag
    have hpayload : ∀ q, decodePayload d.responseLayout p q = decodePayload d.responseLayout p 0 := by
      simp only [List.mem_cons, List.not_mem_nil, or_false] at hlayout
      rcases hlayout with hl | hl | hl <;> rw [hl] <;> exact fun _ => rfl
    simp [runDecode, decodeResults, checkQuantity, hflag, hpayload qty.toNat]

/-- Each function's response row runs as the general DECODE of the record's PDU. -/
theorem exec_decodeNormalDecode (c : Command) (s : State) :
    exec (decodeNormalDecode c) s = exec (.decode c.fc c.qty c.data) s := by
  rcases lookup_cases c.fc with ⟨-, hfc⟩ | hfc
  · simp [decodeNormalDecode, hfc]
  · obtain ⟨d, hd⟩ := exists_lookup_of_mem_supported (fc := c.fc) (by simpa [supported] using hfc)
    rw [exec_decode_listed hd, ← runDecode_qty_ignored hd]
    rcases hfc with h | h | h | h | h | h | h | h | h | h | h <;>
      (rw [h] at hd; cases hd; simp only [decodeNormalDecode, h]; rfl)

/-- A byte with bit 7 set is the EXCEPTION row's first byte for its own low 7 bits (R86). -/
theorem exceptionByte_of_bit7 {b : Byte} (h : b.getLsbD 7 = true) : exceptionByte (b.extractLsb' 0 7) = b := by
  revert b
  decide

theorem exec_decodeDecode (c : Command) (s : State) :
    exec (decodeDecode c) s = exec (.decode c.fc c.qty c.data) s := by
  rcases decodeDecode_cases c with ⟨hnormal, -⟩ | ⟨b, rest, hdata, -, hbit, hrow⟩
  · rw [hnormal, exec_decodeNormalDecode]
  · rw [hrow, exec_exceptionRsp, exceptionByte_of_bit7 hbit, hdata]

/-- Settles O3: the record of a general command holds all its operands, and decodes to a row that runs as it does. -/
theorem generalCommandsRunAsTheirRows : Obligations.GeneralCommandsRunAsTheirRows :=
  ⟨fun fc o s => exec_decodeEncode (encode (.encode fc o)) s,
    fun fc qty data s => exec_decodeDecode (encode (.decode fc qty data)) s⟩

/-! ### Slave exceptions -/

/-- QTY is checked for exactly the functions whose descriptor decodes by it (R200). -/
theorem readFlag_iff_countedByQuantity {fc : Int} {d : Descriptor} (h : lookup fc = some d) :
    d.family.readFlag = true ↔ fc ∈ countedByQuantity := by
  rcases lookup_cases fc with ⟨hnone, -⟩ | hfc
  · simp [hnone] at h
  · rcases hfc with rfl | rfl | rfl | rfl | rfl | rfl | rfl | rfl | rfl | rfl | rfl <;>
      (cases h; decide)

theorem checkQuantity_ok {d : Descriptor} {qty : Int} (h : d.family.readFlag = true → 0 ≤ qty ∧ qty ≤ 65535) :
    checkQuantity d qty = .ok () :=
  if_neg fun ⟨hflag, hrange⟩ => hrange (h hflag)

theorem checkException_slave {b : Byte} (h : b.getLsbD 7 = true) (code : Byte) (rest : Bytes) :
    checkException (b :: code :: rest) = .error (.slaveException code) := by
  simp [checkException, isException, h, byteAt]

theorem checkException_normal {b : Byte} (h : b.getLsbD 7 = false) (rest : Bytes) :
    checkException (b :: rest) = .ok () :=
  (if_neg (Nat.succ_ne_zero _)).trans (if_neg (ne_true_of_eq_false h))

theorem one_append_bit7 (low : BitVec 7) : (1#1 ++ low : Byte).getLsbD 7 = true := by
  revert low
  decide

/-- DECODE of an exception PDU with a code byte raises that code, whatever the low bits and the further bytes are. -/
theorem exec_decode_slaveException {fc qty : Int} (hfc : fc ∈ supported)
    (hqty : fc ∈ countedByQuantity → 0 ≤ qty ∧ qty ≤ 65535) {b : Byte} (hb : b.getLsbD 7 = true) (code : Byte)
    (rest : Bytes) (s : State) :
    exec (.decode fc qty (b :: code :: rest)) s = .next (raiseError (.slaveException code) s) := by
  obtain ⟨d, hd⟩ := exists_lookup_of_mem_supported hfc
  have hcheck : checkQuantity d qty = .ok () :=
    checkQuantity_ok fun hflag => hqty ((readFlag_iff_countedByQuantity hd).mp hflag)
  rw [exec_decode_listed hd, runDecode, decodeResults, hcheck, checkException_slave hb]
  rfl

/-- Settles O36: the EXCEPTION row is the DECODE of a first byte with bit 7 set. -/
theorem slaveExceptionCarriesTheSecondByte : Obligations.SlaveExceptionCarriesTheSecondByte := by
  intro fc hfc qty hqty low code rest s
  have hbit : (exceptionByte low).getLsbD 7 = true := isException_exceptionByte low rest
  exact ⟨exec_decode_slaveException hfc hqty hbit code rest s,
    exec_decode_slaveException hfc hqty (one_append_bit7 low) code rest s⟩

/-! ### Words of the opcode table and encodings written out -/

/-- Settles O7: the word's record is the next action of the port, and the step takes it off again. -/
theorem tableWordRunsNext : Obligations.TableWordRunsNext := by
  intro nbits w i s h
  obtain ⟨c, hc, rfl⟩ := Option.map_eq_some_iff.mp h
  simp only [State.withFetchWord, hc, step]

/-- Settles O8, by computation. -/
theorem writtenOutEncodingsDecode : Obligations.WrittenOutEncodingsDecode := by
  unfold Obligations.WrittenOutEncodingsDecode
  decide

/-! ### Fields as bytes -/

theorem isWord_fieldValue (a b : Byte) : isWord (fieldValue a b) = true := by
  have ha := a.isLt
  have hb := b.isLt
  unfold fieldValue
  exact decide_eq_true (by omega)

/-- Every value of a 16-bit field is two bytes, most significant first (R62). -/
theorem exists_fieldValue {v : Int} (h : isWord v = true) : ∃ a b, fieldValue a b = v := by
  obtain ⟨hlo, hhi⟩ := of_decide_eq_true h
  refine ⟨BitVec.ofNat 8 (v.toNat / 256), BitVec.ofNat 8 v.toNat, ?_⟩
  simp only [fieldValue, BitVec.toNat_ofNat]
  omega

theorem twoBytes_fieldValue (a b : Byte) : twoBytes (fieldValue a b) = [a, b] := by
  have ha := a.isLt
  have hb := b.isLt
  have hhi : fieldValue a b / 256 = (a.toNat : Int) := by unfold fieldValue; omega
  have hlo : BitVec.ofInt 8 (fieldValue a b) = b := by
    apply BitVec.eq_of_toNat_eq
    rw [BitVec.toNat_ofInt, fieldValue]
    omega
  rw [twoBytes, hhi, hlo]
  simp

theorem field16_fieldValue (a b : Byte) : field16 (fieldValue a b) = .ok [a, b] := by
  obtain ⟨hlo, hhi⟩ := of_decide_eq_true (isWord_fieldValue a b)
  rw [field16_eq, if_neg (by unfold outsideWord; omega), twoBytes_fieldValue]

theorem val16_fieldValue (a b : Byte) : val16 (fieldValue a b) = .ok [a, b] := by
  obtain ⟨hlo, hhi⟩ := of_decide_eq_true (isWord_fieldValue a b)
  rw [val16_eq, if_pos (by unfold registerValue; omega), twoBytes_fieldValue]

theorem bc8_toNat (bc : Byte) : bc8 bc.toNat = .ok [bc] := by
  have hbc := bc.isLt
  rw [bc8_ok (by omega), BitVec.ofNat_toNat, BitVec.setWidth_eq]

/-- Bytes read as words are what those words are assembled to, two bytes each and unsigned. -/
theorem fieldValues_ok {data : Bytes} {vs : List Int} (h : fieldValues data = .ok vs) :
    assembleEach val16 vs = .ok data ∧ data.length = 2 * vs.length ∧ vs.all isWord = true := by
  induction data using fieldValues.induct generalizing vs with
  | case1 => cases h; exact ⟨rfl, rfl, rfl⟩
  | case2 => cases h
  | case3 a b rest ws hrest ih =>
    simp only [fieldValues, hrest] at h
    cases h
    obtain ⟨hbytes, hlen, hword⟩ := ih hrest
    refine ⟨?_, ?_, ?_⟩
    · simp only [assembleEach, val16_fieldValue, hbytes]
      rfl
    · simp only [List.length_cons, hlen]
      omega
    · simp [isWord_fieldValue, hword]
  | case4 a b rest e hrest ih =>
    simp only [fieldValues, hrest] at h
    cases h

theorem exists_fieldValues {vs : List Int} (h : vs.all isWord = true) : ∃ data, fieldValues data = .ok vs := by
  induction vs with
  | nil => exact ⟨[], rfl⟩
  | cons v vs ih =>
    rw [List.all_cons, Bool.and_eq_true] at h
    obtain ⟨hv, hvs⟩ := h
    obtain ⟨a, b, rfl⟩ := exists_fieldValue hv
    obtain ⟨data, hdata⟩ := ih hvs
    exact ⟨a :: b :: data, by simp only [fieldValues, hdata]⟩

/-- Data bytes read as integers are what those integers are assembled to. -/
theorem assembleEach_byte8_toNat (data : Bytes) :
    assembleEach byte8 (data.map fun x => (x.toNat : Int)) = .ok data := by
  have hfits : ∀ v ∈ data.map fun x => (x.toNat : Int), 0 ≤ v ∧ v ≤ 255 := by
    intro v hv
    obtain ⟨x, -, rfl⟩ := List.mem_map.mp hv
    have := x.isLt
    omega
  rw [assembleEach_byte8, if_pos hfits]
  simp [Function.comp_def]

theorem all_isByte_toNat (data : Bytes) : (data.map fun x => (x.toNat : Int)).all isByte = true := by
  simp only [List.all_map, List.all_eq_true, Function.comp_apply, isByte, decide_eq_true_eq]
  intro x _
  have := x.isLt
  omega

theorem exists_bytes_toNat {vs : List Int} (h : vs.all isByte = true) :
    ∃ data : Bytes, (data.map fun x => (x.toNat : Int)) = vs := by
  refine ⟨vs.map (BitVec.ofInt 8), ?_⟩
  have hbyte : ∀ v ∈ vs, ((BitVec.ofInt 8 v).toNat : Int) = v := by
    intro v hv
    obtain ⟨hlo, hhi⟩ := of_decide_eq_true (List.all_eq_true.mp h v hv)
    rw [BitVec.toNat_ofInt]
    omega
  rw [List.map_map]
  exact (List.map_congr_left hbyte).trans (List.map_id vs)

/-! ### Packed coils -/

theorem bitAt_lt_two (d : Bytes) (k : Nat) : bitAt d k < 2 := by
  rw [bitAt_eq]
  exact Bool.toNat_lt _

theorem bitAt_of_past {d : Bytes} {k : Nat} (h : 8 * d.length ≤ k) : bitAt d k = 0 := by
  rw [bitAt_eq, List.getD_eq_default _ _ (by omega)]
  simp

/-- Every bit of packed coils, the pad bits included. -/
theorem bitAt_packBits (bits : List Int) (k : Nat) :
    bitAt (packBits bits) k = if bits.getD k 0 = 0 then 0 else 1 := by
  rw [bitAt_eq, packBits_getLsbD]
  by_cases h : bits.getD k 0 = 0
  · rw [if_pos h, decide_eq_true h]
    rfl
  · rw [if_neg h, decide_eq_false h]
    rfl

theorem bool_toNat_injective : Function.Injective Bool.toNat := by decide

/-- Byte sequences of one length with the same bits are equal. -/
theorem bytes_eq_of_bitAt {d e : Bytes} (hlen : d.length = e.length) (h : ∀ k, bitAt d k = bitAt e k) : d = e := by
  refine List.ext_getElem hlen fun j hd he => BitVec.eq_of_getLsbD_eq fun m hm => ?_
  have hbit := h (8 * j + m)
  rw [bitAt_eq, bitAt_eq, show (8 * j + m) / 8 = j by omega, show (8 * j + m) % 8 = m by omega,
    List.getD_eq_getElem _ _ hd, List.getD_eq_getElem _ _ he] at hbit
  exact bool_toNat_injective hbit

/-- The reader's test of the pad bits (R64): no bit from the `n`th on is set. -/
theorem padBits_clear_iff (n : Nat) (d : Bytes) :
    ((unpackBits (8 * d.length) d).drop n).any (· != 0) = false ↔ ∀ k, n ≤ k → bitAt d k = 0 := by
  simp only [List.any_eq_false, List.mem_iff_getElem, List.length_drop, List.getElem_drop,
    unpackBits, List.getElem_map, List.getElem_range, bne_iff_ne, not_not]
  constructor
  · intro h k hk
    by_cases hin : k < 8 * d.length
    · exact h _ ⟨k - n, by simp; omega, by rw [Nat.add_sub_cancel' hk]⟩
    · exact bitAt_of_past (Nat.le_of_not_lt hin)
  · rintro h _ ⟨k, _, rfl⟩
    exact h _ (Nat.le_add_right n k)

/-- The first `n` bits of packed data as coil values. -/
def coilsOf (n : Nat) (d : Bytes) : List Int := (List.range n).map fun k => (bitAt d k : Int)

/-- They are the VALUES the request reader gives the row. -/
theorem unpackBits_eq_coilsOf (n : Nat) (d : Bytes) : ((unpackBits n d).map fun x => (x : Int)) = coilsOf n d := by
  simp [unpackBits, coilsOf, List.map_eq_flatMap, List.flatMap_assoc]

@[simp] theorem coilsOf_length (n : Nat) (d : Bytes) : (coilsOf n d).length = n := by simp [coilsOf]

theorem coilsOf_getD (n : Nat) (d : Bytes) (k : Nat) :
    (coilsOf n d).getD k 0 = if k < n then (bitAt d k : Int) else 0 := by
  split
  · rename_i hk
    rw [List.getD_eq_getElem _ _ (by simpa using hk)]
    simp [coilsOf]
  · rename_i hk
    exact List.getD_eq_default _ _ (by simpa using hk)

theorem all_isBit_coilsOf (n : Nat) (d : Bytes) : (coilsOf n d).all isBit = true := by
  simp only [coilsOf, List.all_map, List.all_eq_true, Function.comp_apply]
  intro k _
  have htwo := bitAt_lt_two d k
  exact decide_eq_true (by omega)

/-- Unpacking coils from packed data and packing them again gives the data, if the data's pad bits are 0. -/
theorem packBits_coilsOf {n : Nat} {d : Bytes} (hlen : d.length = ceil8 n) (hpad : ∀ k, n ≤ k → bitAt d k = 0) :
    packBits (coilsOf n d) = d := by
  refine bytes_eq_of_bitAt (by simp [hlen]) fun k => ?_
  rw [bitAt_packBits, coilsOf_getD]
  have htwo := bitAt_lt_two d k
  by_cases hk : k < n
  · rw [if_pos hk]
    split <;> omega
  · rw [if_neg hk, if_pos rfl, hpad k (Nat.le_of_not_lt hk)]

/-- Packing coils and unpacking them again gives the coils. -/
theorem coilsOf_packBits {vs : List Int} (h : vs.all isBit = true) : coilsOf vs.length (packBits vs) = vs := by
  refine List.ext_getElem (by simp) fun k _ hk => ?_
  have hbit : vs[k] = 0 ∨ vs[k] = 1 := of_decide_eq_true (List.all_eq_true.mp h _ (List.getElem_mem hk))
  simp only [coilsOf, List.getElem_map, List.getElem_range, bitAt_packBits, List.getD_eq_getElem _ _ hk]
  split <;> omega

theorem bitAt_packBits_of_past (bits : List Int) {k : Nat} (h : bits.length ≤ k) : bitAt (packBits bits) k = 0 := by
  rw [bitAt_packBits, if_pos (List.getD_eq_default _ _ h)]

/-! ### The bytes of each request layout -/

/-- The request PDUs of R84, one constructor for each row: its bytes, and the instruction they spell. -/
inductive Spells : Bytes → Instr → Prop where
  | readCoils (a b c d : Byte) : Spells [0x01, a, b, c, d] (.readCoilsReq (fieldValue a b) (fieldValue c d) none)
  | readDiscreteInputs (a b c d : Byte) :
    Spells [0x02, a, b, c, d] (.readDiscreteInputsReq (fieldValue a b) (fieldValue c d) none)
  | readHoldingRegisters (a b c d : Byte) :
    Spells [0x03, a, b, c, d] (.readHoldingRegistersReq (fieldValue a b) (fieldValue c d) none)
  | readInputRegisters (a b c d : Byte) :
    Spells [0x04, a, b, c, d] (.readInputRegistersReq (fieldValue a b) (fieldValue c d) none)
  | coilOn (a b : Byte) : Spells [0x05, a, b, 0xFF, 0x00] (.writeSingleCoilReq (fieldValue a b) 1 none)
  | coilOff (a b : Byte) : Spells [0x05, a, b, 0x00, 0x00] (.writeSingleCoilReq (fieldValue a b) 0 none)
  | writeSingleRegister (a b c d : Byte) :
    Spells [0x06, a, b, c, d] (.writeSingleRegisterReq (fieldValue a b) (fieldValue c d) none)
  | readExceptionStatus : Spells [0x07] (.readExceptionStatusReq none)
  | diagnostic (a b : Byte) (data : Bytes) :
    Spells (0x08 :: a :: b :: data) (.diagnosticReq (fieldValue a b) (data.map fun x => (x.toNat : Int)) none)
  | writeMultipleCoils (a b c d bc : Byte) (data : Bytes) (hbc : bc.toNat = ceil8 (c.toNat * 256 + d.toNat))
    (hlen : data.length = bc.toNat) (hpad : ∀ k, c.toNat * 256 + d.toNat ≤ k → bitAt data k = 0) :
    Spells (0x0F :: a :: b :: c :: d :: bc :: data)
      (.writeMultipleCoilsReq (fieldValue a b) (fieldValue c d) (coilsOf (c.toNat * 256 + d.toNat) data) none)
  | writeMultipleRegisters (a b c d bc : Byte) (data : Bytes) (vs : List Int)
    (hbc : bc.toNat = 2 * (c.toNat * 256 + d.toNat)) (hlen : data.length = bc.toNat) (hvs : fieldValues data = .ok vs) :
    Spells (0x10 :: a :: b :: c :: d :: bc :: data)
      (.writeMultipleRegistersReq (fieldValue a b) (fieldValue c d) vs none)
  | readWriteMultipleRegisters (a b c d e f g h bc : Byte) (data : Bytes) (vs : List Int)
    (hbc : bc.toNat = 2 * (g.toNat * 256 + h.toNat)) (hlen : data.length = bc.toNat) (hvs : fieldValues data = .ok vs) :
    Spells (0x17 :: a :: b :: c :: d :: e :: f :: g :: h :: bc :: data)
      (.readWriteMultipleRegistersReq (fieldValue a b) (fieldValue c d) (fieldValue e f) vs none)

theorem twoFields_ok {row : Int → Int → Instr} {rest : Bytes} {i : Instr} (h : twoFields row rest = .ok i) :
    ∃ a b c d, rest = [a, b, c, d] ∧ row (fieldValue a b) (fieldValue c d) = i := by
  unfold twoFields at h
  split at h
  · cases h
    exact ⟨_, _, _, _, rfl, rfl⟩
  · cases h

theorem addressAndCoil_ok {rest : Bytes} {i : Instr} (h : addressAndCoil rest = .ok i) : Spells (0x05 :: rest) i := by
  unfold addressAndCoil at h
  split at h
  · split_ifs at h with hon hoff
    · obtain ⟨rfl, rfl⟩ := hon
      cases h
      exact .coilOn ..
    · obtain ⟨rfl, rfl⟩ := hoff
      cases h
      exact .coilOff ..
  · cases h

theorem nothingMore_ok {rest : Bytes} {i : Instr} (h : nothingMore rest = .ok i) : Spells (0x07 :: rest) i := by
  unfold nothingMore at h
  split at h
  · cases h
    exact .readExceptionStatus
  · cases h

theorem subfunctionAndData_ok {rest : Bytes} {i : Instr} (h : subfunctionAndData rest = .ok i) :
    Spells (0x08 :: rest) i := by
  unfold subfunctionAndData at h
  split at h
  · cases h
    exact .diagnostic ..
  · cases h

theorem packedCoils_ok {rest : Bytes} {i : Instr} (h : packedCoils rest = .ok i) : Spells (0x0F :: rest) i := by
  unfold packedCoils at h
  split at h
  · dsimp only at h
    split_ifs at h with hbc hlen hpad
    rw [unpackBits_eq_coilsOf] at h
    cases h
    rw [Bool.not_eq_true, padBits_clear_iff] at hpad
    exact .writeMultipleCoils _ _ _ _ _ _ (not_not.mp hbc) (not_not.mp hlen) hpad
  · cases h

theorem registerBlock_ok {rest : Bytes} {i : Instr} (h : registerBlock rest = .ok i) : Spells (0x10 :: rest) i := by
  unfold registerBlock at h
  split at h
  · split_ifs at h with hbc hlen
    split at h
    · cases h
      exact .writeMultipleRegisters _ _ _ _ _ _ _ (not_not.mp hbc) (not_not.mp hlen) ‹_›
    · cases h
  · cases h

theorem readAndWriteBlock_ok {rest : Bytes} {i : Instr} (h : readAndWriteBlock rest = .ok i) :
    Spells (0x17 :: rest) i := by
  unfold readAndWriteBlock at h
  split at h
  · split_ifs at h with hbc hlen
    split at h
    · cases h
      exact .readWriteMultipleRegisters _ _ _ _ _ _ _ _ _ _ _ (not_not.mp hbc) (not_not.mp hlen) ‹_›
    · cases h
  · cases h

theorem ok_of_ite_ok {α ε : Type} {c : Prop} [Decidable c] {x y : Except ε α} {a : α}
    (h : (if c then x else y) = .ok a) : c ∧ x = .ok a ∨ y = .ok a := by
  by_cases hc : c
  · exact .inl ⟨hc, (if_pos hc).symm.trans h⟩
  · exact .inr ((if_neg hc).symm.trans h)

/-- Whatever the reader of request PDUs accepts is spelled by R84's layout of the row it reads. -/
theorem spells_of_decodeRequestPdu {pdu : Bytes} {i : Instr} (h : decodeRequestPdu pdu = .ok i) : Spells pdu i := by
  cases pdu with
  | nil => cases h
  | cons fc rest =>
    rcases ok_of_ite_ok h with ⟨rfl, hrow⟩ | h
    · obtain ⟨a, b, c, d, rfl, rfl⟩ := twoFields_ok hrow
      exact .readCoils a b c d
    rcases ok_of_ite_ok h with ⟨rfl, hrow⟩ | h
    · obtain ⟨a, b, c, d, rfl, rfl⟩ := twoFields_ok hrow
      exact .readDiscreteInputs a b c d
    rcases ok_of_ite_ok h with ⟨rfl, hrow⟩ | h
    · obtain ⟨a, b, c, d, rfl, rfl⟩ := twoFields_ok hrow
      exact .readHoldingRegisters a b c d
    rcases ok_of_ite_ok h with ⟨rfl, hrow⟩ | h
    · obtain ⟨a, b, c, d, rfl, rfl⟩ := twoFields_ok hrow
      exact .readInputRegisters a b c d
    rcases ok_of_ite_ok h with ⟨rfl, hrow⟩ | h
    · exact addressAndCoil_ok hrow
    rcases ok_of_ite_ok h with ⟨rfl, hrow⟩ | h
    · obtain ⟨a, b, c, d, rfl, rfl⟩ := twoFields_ok hrow
      exact .writeSingleRegister a b c d
    rcases ok_of_ite_ok h with ⟨rfl, hrow⟩ | h
    · exact nothingMore_ok hrow
    rcases ok_of_ite_ok h with ⟨rfl, hrow⟩ | h
    · exact subfunctionAndData_ok hrow
    rcases ok_of_ite_ok h with ⟨rfl, hrow⟩ | h
    · exact packedCoils_ok hrow
    rcases ok_of_ite_ok h with ⟨rfl, hrow⟩ | h
    · exact registerBlock_ok hrow
    rcases ok_of_ite_ok h with ⟨rfl, hrow⟩ | h
    · exact readAndWriteBlock_ok hrow
    cases h

/-- The reader of request PDUs accepts every layout of R84 as its row. -/
theorem decodeRequestPdu_of_spells {pdu : Bytes} {i : Instr} (h : Spells pdu i) : decodeRequestPdu pdu = .ok i := by
  cases h with
  | writeMultipleCoils a b c d bc data hbc hlen hpad =>
    rw [← padBits_clear_iff] at hpad
    change packedCoils (a :: b :: c :: d :: bc :: data) = _
    simp only [packedCoils, hpad]
    rw [if_neg (not_not.mpr hbc), if_neg (not_not.mpr hlen), if_neg Bool.false_ne_true, unpackBits_eq_coilsOf]
  | writeMultipleRegisters a b c d bc data vs hbc hlen hvs =>
    change registerBlock (a :: b :: c :: d :: bc :: data) = _
    simp [registerBlock, hbc, hlen, hvs]
  | readWriteMultipleRegisters a b c d e f g h bc data vs hbc hlen hvs =>
    change readAndWriteBlock (a :: b :: c :: d :: e :: f :: g :: h :: bc :: data) = _
    simp [readAndWriteBlock, hbc, hlen, hvs]
  | _ => rfl

theorem fieldValue_eq_natCast {a b : Byte} {n : Nat} : fieldValue a b = (n : Int) ↔ a.toNat * 256 + b.toNat = n :=
  Int.ofNat_inj

theorem fieldValue_toNat (a b : Byte) : (fieldValue a b).toNat = a.toNat * 256 + b.toNat := rfl

/-- ENCODE of the row completes with these bytes as its PDU, in every state. -/
def Builds (i : Instr) (pdu : Bytes) : Prop := ∀ s, ∃ t, exec i s = .next t ∧ t.response.pdu = some pdu

/-- ENCODE by a descriptor answers the PDU that its layout assembles, if the caller's precondition holds (R153). -/
theorem runEncode_ok {d : Descriptor} {o : EncodeOperands} {pdu : Bytes} (hpre : preconditionHolds d o = true)
    (hpdu : requestPdu d o = .ok pdu) (s : State) :
    runEncode d o s = .next (complete
      { pdu := some pdu
        expLen := some (o.lenOvr.getD (expectedLength d.family o))
        ctx := some (decodeContext d o) } s) := by
  rw [runEncode, if_pos hpre, encodeResults, hpdu]
  rfl

theorem runEncode_error {d : Descriptor} {o : EncodeOperands} {e : Error} (hpre : preconditionHolds d o = true)
    (hpdu : requestPdu d o = .error e) (s : State) : runEncode d o s = .next (raiseError e s) := by
  rw [runEncode, if_pos hpre, encodeResults, hpdu]
  rfl

theorem builds_of_requestPdu {i : Instr} (d : Descriptor) (o : EncodeOperands) {pdu : Bytes}
    (hi : ∀ s, exec i s = runEncode d o s) (hpre : preconditionHolds d o = true) (hpdu : requestPdu d o = .ok pdu) :
    Builds i pdu :=
  fun s => ⟨_, (hi s).trans (runEncode_ok hpre hpdu s), rfl⟩

theorem requestPdu_reqRead {d : Descriptor} (h : d.requestLayout = .reqRead) (a b c e : Byte) :
    requestPdu d { start := fieldValue a b, qty := fieldValue c e } = .ok [d.fc, a, b, c, e] := by
  simp only [requestPdu, h, field16_fieldValue]
  rfl

theorem builds_reqRead {i : Instr} {d : Descriptor} (h : d.requestLayout = .reqRead) {a b c e : Byte}
    (hi : ∀ s, exec i s = runEncode d { start := fieldValue a b, qty := fieldValue c e } s) :
    Builds i [d.fc, a, b, c, e] :=
  builds_of_requestPdu d _ hi (by simp only [preconditionHolds, h]) (requestPdu_reqRead h a b c e)

theorem builds_writeSingleCoilReq (a b : Byte) (value : Int) :
    Builds (.writeSingleCoilReq (fieldValue a b) value none) (0x05 :: a :: b :: coil16 value) := by
  refine builds_of_requestPdu writeSingleCoil { start := fieldValue a b, value } (fun _ => rfl) rfl ?_
  simp only [requestPdu, writeSingleCoil, field16_fieldValue]
  rfl

/-- What ENCODE builds for the row a layout spells is the layout's bytes. -/
theorem builds_of_spells {pdu : Bytes} {i : Instr} (h : Spells pdu i) : Builds i pdu := by
  cases h with
  | readCoils a b c d => exact builds_reqRead (d := readCoils) rfl fun _ => rfl
  | readDiscreteInputs a b c d => exact builds_reqRead (d := readDiscreteInputs) rfl fun _ => rfl
  | readHoldingRegisters a b c d => exact builds_reqRead (d := readHoldingRegisters) rfl fun _ => rfl
  | readInputRegisters a b c d => exact builds_reqRead (d := readInputRegisters) rfl fun _ => rfl
  | coilOn a b => exact builds_writeSingleCoilReq a b 1
  | coilOff a b => exact builds_writeSingleCoilReq a b 0
  | writeSingleRegister a b c d =>
    refine builds_of_requestPdu writeSingleRegister { start := fieldValue a b, value := fieldValue c d }
      (fun _ => rfl) rfl ?_
    simp only [requestPdu, writeSingleRegister, field16_fieldValue, val16_fieldValue]
    rfl
  | readExceptionStatus => exact builds_of_requestPdu readExceptionStatus {} (fun _ => rfl) rfl rfl
  | diagnostic a b data =>
    refine builds_of_requestPdu diagnostic
      { start := fieldValue a b, values := data.map fun x => (x.toNat : Int) } (fun _ => rfl) rfl ?_
    simp only [requestPdu, diagnostic, field16_fieldValue, assembleEach_byte8_toNat]
    rfl
  | writeMultipleCoils a b c d bc data hbc hlen hpad =>
    have hcount : ((coilsOf (c.toNat * 256 + d.toNat) data).length : Int) = fieldValue c d := by
      rw [coilsOf_length]
      rfl
    refine builds_of_requestPdu writeMultipleCoils
      { start := fieldValue a b, qty := fieldValue c d, values := coilsOf (c.toNat * 256 + d.toNat) data }
      (fun _ => rfl) ?_ ?_
    · refine Bool.and_eq_true_iff.mpr ⟨decide_eq_true hcount, List.all_eq_true.mpr fun v hv => ?_⟩
      have hbit : v = 0 ∨ v = 1 := of_decide_eq_true (List.all_eq_true.mp (all_isBit_coilsOf _ data) v hv)
      simpa using hbit
    · simp only [requestPdu, writeMultipleCoils, field16_fieldValue, fieldValue_toNat, ← hbc, bc8_toNat,
        packBits_coilsOf (hlen.trans hbc) hpad]
      rfl
  | writeMultipleRegisters a b c d bc data vs hbc hlen hvs =>
    obtain ⟨hbytes, htwice, -⟩ := fieldValues_ok hvs
    have hcount : (vs.length : Int) = fieldValue c d := (fieldValue_eq_natCast.mpr (by omega)).symm
    refine builds_of_requestPdu writeMultipleRegisters
      { start := fieldValue a b, qty := fieldValue c d, values := vs } (fun _ => rfl) (decide_eq_true hcount) ?_
    simp only [requestPdu, writeMultipleRegisters, field16_fieldValue, fieldValue_toNat, ← hbc, bc8_toNat, hbytes]
    rfl
  | readWriteMultipleRegisters a b c d e f g h bc data vs hbc hlen hvs =>
    obtain ⟨hbytes, htwice, -⟩ := fieldValues_ok hvs
    have hcount : (vs.length : Int) = fieldValue g h := (fieldValue_eq_natCast.mpr (by omega)).symm
    refine builds_of_requestPdu readWriteMultipleRegisters
      { start := fieldValue a b, qty := fieldValue c d, waddr := fieldValue e f, values := vs } (fun _ => rfl) rfl ?_
    simp only [requestPdu, readWriteMultipleRegisters, field16_fieldValue, hcount, ← htwice, hlen, bc8_toNat,
      hbytes]
    rfl

/-- The row a layout spells has operands that fit its PDU. -/
theorem wireWellFormed_of_spells {pdu : Bytes} {i : Instr} (h : Spells pdu i) : wireWellFormed i = true := by
  cases h with
  | diagnostic a b data =>
    simp only [wireWellFormed, Bool.and_eq_true]
    exact ⟨⟨isWord_fieldValue a b, all_isByte_toNat data⟩, rfl⟩
  | writeMultipleCoils a b c d bc data hbc hlen hpad =>
    have hbyte := bc.isLt
    have hmax : c.toNat * 256 + d.toNat ≤ 2040 := by unfold ceil8 at hbc; omega
    simp only [wireWellFormed, Bool.and_eq_true, decide_eq_true_eq, coilsOf_length]
    exact ⟨⟨⟨⟨isWord_fieldValue a b, rfl⟩, hmax⟩, all_isBit_coilsOf _ data⟩, rfl⟩
  | writeMultipleRegisters a b c d bc data vs hbc hlen hvs =>
    obtain ⟨-, htwice, hwords⟩ := fieldValues_ok hvs
    have hbyte := bc.isLt
    have hcount : fieldValue c d = vs.length := fieldValue_eq_natCast.mpr (by omega)
    simp only [wireWellFormed, Bool.and_eq_true, decide_eq_true_eq]
    exact ⟨⟨⟨⟨isWord_fieldValue a b, hcount⟩, by omega⟩, hwords⟩, rfl⟩
  | readWriteMultipleRegisters a b c d e f g h bc data vs hbc hlen hvs =>
    obtain ⟨-, htwice, hwords⟩ := fieldValues_ok hvs
    have hbyte := bc.isLt
    simp only [wireWellFormed, Bool.and_eq_true, decide_eq_true_eq]
    exact ⟨⟨⟨⟨⟨isWord_fieldValue a b, isWord_fieldValue c d⟩, isWord_fieldValue e f⟩, by omega⟩, hwords⟩, rfl⟩
  | _ => simp [wireWellFormed, isWord_fieldValue, isBit]

theorem toNat_ofNat_byte {n : Nat} (h : n ≤ 255) : (BitVec.ofNat 8 n).toNat = n := by
  rw [BitVec.toNat_ofNat]
  omega

theorem exists_twoFieldValues {v w : Int} (hv : isWord v = true) (hw : isWord w = true) :
    ∃ a b c d, fieldValue a b = v ∧ fieldValue c d = w := by
  obtain ⟨a, b, hab⟩ := exists_fieldValue hv
  obtain ⟨c, d, hcd⟩ := exists_fieldValue hw
  exact ⟨a, b, c, d, hab, hcd⟩

/-- At most 127 words as R84's layouts hold them: their count in 16 bits, the byte count, and the data bytes. -/
theorem exists_wordBlock {vs : List Int} (hmax : vs.length ≤ 127) (hwords : vs.all isWord = true) :
    ∃ (a b bc : Byte) (data : Bytes), fieldValue a b = vs.length ∧ bc.toNat = 2 * (a.toNat * 256 + b.toNat) ∧
      data.length = bc.toNat ∧ fieldValues data = .ok vs := by
  obtain ⟨a, b, hab⟩ := exists_fieldValue (v := vs.length) (decide_eq_true (by omega))
  obtain ⟨data, hdata⟩ := exists_fieldValues hwords
  obtain ⟨-, htwice, -⟩ := fieldValues_ok hdata
  have hbc : (BitVec.ofNat 8 (2 * vs.length)).toNat = 2 * vs.length := toNat_ofNat_byte (by omega)
  exact ⟨a, b, _, data, hab, by rw [hbc, fieldValue_eq_natCast.mp hab], htwice.trans hbc.symm, hdata⟩

/-- Every request row with operands that fit its PDU is spelled by some bytes. -/
theorem exists_spells_of_wireWellFormed {i : Instr} (h : wireWellFormed i = true) : ∃ pdu, Spells pdu i := by
  cases i <;>
    simp only [wireWellFormed, Bool.and_eq_true, Option.isNone_iff_eq_none, decide_eq_true_eq, Bool.false_eq_true] at h
  case readCoilsReq =>
    obtain ⟨⟨hstart, hqty⟩, rfl⟩ := h
    obtain ⟨a, b, c, d, rfl, rfl⟩ := exists_twoFieldValues hstart hqty
    exact ⟨_, .readCoils a b c d⟩
  case readDiscreteInputsReq =>
    obtain ⟨⟨hstart, hqty⟩, rfl⟩ := h
    obtain ⟨a, b, c, d, rfl, rfl⟩ := exists_twoFieldValues hstart hqty
    exact ⟨_, .readDiscreteInputs a b c d⟩
  case readHoldingRegistersReq =>
    obtain ⟨⟨hstart, hqty⟩, rfl⟩ := h
    obtain ⟨a, b, c, d, rfl, rfl⟩ := exists_twoFieldValues hstart hqty
    exact ⟨_, .readHoldingRegisters a b c d⟩
  case readInputRegistersReq =>
    obtain ⟨⟨hstart, hqty⟩, rfl⟩ := h
    obtain ⟨a, b, c, d, rfl, rfl⟩ := exists_twoFieldValues hstart hqty
    exact ⟨_, .readInputRegisters a b c d⟩
  case writeSingleCoilReq =>
    obtain ⟨⟨hstart, hbit⟩, rfl⟩ := h
    obtain ⟨a, b, rfl⟩ := exists_fieldValue hstart
    obtain rfl | rfl := of_decide_eq_true hbit
    · exact ⟨_, .coilOff a b⟩
    · exact ⟨_, .coilOn a b⟩
  case writeSingleRegisterReq =>
    obtain ⟨⟨hstart, hvalue⟩, rfl⟩ := h
    obtain ⟨a, b, c, d, rfl, rfl⟩ := exists_twoFieldValues hstart hvalue
    exact ⟨_, .writeSingleRegister a b c d⟩
  case readExceptionStatusReq =>
    obtain rfl := h
    exact ⟨_, .readExceptionStatus⟩
  case diagnosticReq =>
    obtain ⟨⟨hstart, hbytes⟩, rfl⟩ := h
    obtain ⟨a, b, rfl⟩ := exists_fieldValue hstart
    obtain ⟨data, rfl⟩ := exists_bytes_toNat hbytes
    exact ⟨_, .diagnostic a b data⟩
  case writeMultipleCoilsReq start qty values lenOvr =>
    obtain ⟨⟨⟨⟨hstart, rfl⟩, hmax⟩, hbits⟩, rfl⟩ := h
    obtain ⟨a, b, rfl⟩ := exists_fieldValue hstart
    obtain ⟨c, d, hqty⟩ := exists_fieldValue (v := values.length) (decide_eq_true (by omega))
    have hcount := fieldValue_eq_natCast.mp hqty
    have hbc : (BitVec.ofNat 8 (ceil8 values.length)).toNat = ceil8 values.length :=
      toNat_ofNat_byte (by unfold ceil8; omega)
    have hspells := Spells.writeMultipleCoils a b c d (BitVec.ofNat 8 (ceil8 values.length)) (packBits values)
      (by rw [hbc, hcount]) (by rw [hbc, packBits_length]) (fun k hk => bitAt_packBits_of_past _ (hcount ▸ hk))
    rw [hqty, hcount, coilsOf_packBits hbits] at hspells
    exact ⟨_, hspells⟩
  case writeMultipleRegistersReq =>
    obtain ⟨⟨⟨⟨hstart, rfl⟩, hmax⟩, hwords⟩, rfl⟩ := h
    obtain ⟨a, b, rfl⟩ := exists_fieldValue hstart
    obtain ⟨c, d, bc, data, hqty, hbc, hlen, hdata⟩ := exists_wordBlock hmax hwords
    rw [← hqty]
    exact ⟨_, .writeMultipleRegisters a b c d bc data _ hbc hlen hdata⟩
  case readWriteMultipleRegistersReq =>
    obtain ⟨⟨⟨⟨⟨hstart, hqty⟩, hwaddr⟩, hmax⟩, hwords⟩, rfl⟩ := h
    obtain ⟨a, b, c, d, rfl, rfl⟩ := exists_twoFieldValues hstart hqty
    obtain ⟨e, f, rfl⟩ := exists_fieldValue hwaddr
    obtain ⟨g, h, bc, data, -, hbc, hlen, hdata⟩ := exists_wordBlock hmax hwords
    exact ⟨_, .readWriteMultipleRegisters a b c d e f g h bc data _ hbc hlen hdata⟩

/-- Settles O4: the bytes that spell the row are what ENCODE builds and what the reader reads. -/
theorem requestPduReadsBack : Obligations.RequestPduReadsBack := by
  intro i s hwire
  obtain ⟨pdu, hspells⟩ := exists_spells_of_wireWellFormed hwire
  obtain ⟨t, ht, hpdu⟩ := builds_of_spells hspells s
  exact ⟨t, pdu, ht, hpdu, decodeRequestPdu_of_spells hspells⟩

/-- Settles O5: the accepted bytes spell the row, so ENCODE builds them. -/
theorem readRequestPduIsTheOneBuilt : Obligations.ReadRequestPduIsTheOneBuilt := by
  intro pdu i s h
  have hspells := spells_of_decodeRequestPdu h
  exact ⟨wireWellFormed_of_spells hspells, builds_of_spells hspells s⟩

/-! ### A frame read back -/

theorem framePdu_buildFrame (order : CrcByteOrder) (a : Byte) (pdu : Bytes) :
    framePdu (buildFrame order a pdu) = pdu := by
  have hlen : (buildFrame order a pdu).length - 3 = pdu.length := by rw [buildFrame_length]; omega
  rw [framePdu, memRead, hlen]
  exact List.take_left

theorem crcOk_buildFrame (order : CrcByteOrder) (a : Byte) (pdu : Bytes) :
    crcOk order (buildFrame order a pdu) = true := by
  have hlen : (buildFrame order a pdu).length - 2 = (a :: pdu).length := by
    rw [buildFrame_length, List.length_cons]
    omega
  have hbody : memRead (buildFrame order a pdu) 0 (a :: pdu).length = a :: pdu := List.take_left
  have htrailer : memRead (buildFrame order a pdu) (a :: pdu).length 2 = crcTrailer order (crc16 (a :: pdu)) := by
    rw [memRead, buildFrame, List.drop_left]
    exact List.take_of_length_le (crcTrailer_length ..).le
  rw [crcOk, hlen, hbody, htrailer]
  exact beq_self_eq_true _

/-- PARSE_RESPONSE of a frame from the recorded address answers its PDU (R251). -/
theorem exec_parseResponse_buildFrame {s : State} {a : Byte} (hvalid : s.lastValid = true) (ha : s.lastAddr = a)
    (pdu : Bytes) :
    exec (.parseResponse (buildFrame .lowFirst a pdu)) s = .next (complete { pdu := some pdu } s) := by
  have hlen : ¬(buildFrame .lowFirst a pdu).length < 3 := by rw [buildFrame_length]; omega
  have haddr : byteAt (buildFrame .lowFirst a pdu) 0 = s.lastAddr := ha.symm
  have hcrc : crcOk config.crcByteOrder (buildFrame .lowFirst a pdu) ≠ false :=
    ne_false_of_eq_true (crcOk_buildFrame .lowFirst a pdu)
  rw [exec, execParseResponse, parsedResponse, if_neg hlen, if_neg (ne_false_of_eq_true hvalid),
    if_neg (not_not.mpr haddr), if_neg hcrc, framePdu_buildFrame, finish_ok]

/-- PARSE_RESPONSE of a frame from another address (R251). -/
theorem exec_parseResponse_addrMismatch {s : State} (hvalid : s.lastValid = true) {a : Byte} (ha : a ≠ s.lastAddr)
    (order : CrcByteOrder) (pdu : Bytes) :
    exec (.parseResponse (buildFrame order a pdu)) s =
      .next (raiseError (.invalidResponseFrame .addrMismatch) s) := by
  have hlen : ¬(buildFrame order a pdu).length < 3 := by rw [buildFrame_length]; omega
  have haddr : byteAt (buildFrame order a pdu) 0 ≠ s.lastAddr := ha
  rw [exec, execParseResponse, parsedResponse, if_neg hlen, if_neg (ne_false_of_eq_true hvalid), if_pos haddr,
    finish_error]

/-! ### What a first command hands on to the second -/

/-- A command whose result, when it returns one, carries a PDU: with STATUS OK the response port holds that PDU. -/
theorem pdu_of_finish_ok {r : Except Error Response} (hr : ∀ out, r = .ok out → ∃ pdu, out.pdu = some pdu) {s t : State}
    (h : finish r s = .next t) (hok : t.response.status = .ok) : ∃ pdu, t.response.pdu = some pdu := by
  cases r with
  | ok out =>
    cases h
    exact hr out rfl
  | error e =>
    cases h
    exact absurd hok (error_status_ne_ok e)

theorem encodeResults_pdu {d : Descriptor} {o : EncodeOperands} {out : Response} (h : encodeResults d o = .ok out) :
    ∃ pdu, out.pdu = some pdu := by
  unfold encodeResults at h
  cases hpdu : requestPdu d o with
  | ok pdu =>
    rw [hpdu] at h
    cases h
    exact ⟨pdu, rfl⟩
  | error e =>
    rw [hpdu] at h
    cases h

theorem parsedResponse_pdu {s : State} {f : Bytes} {out : Response} (h : parsedResponse s f = .ok out) :
    ∃ pdu, out.pdu = some pdu := by
  unfold parsedResponse at h
  split_ifs at h
  cases h
  exact ⟨_, rfl⟩

theorem exec_encode_pdu {fc : Int} {o : EncodeOperands} {s t : State} (h : exec (.encode fc o) s = .next t)
    (hok : t.response.status = .ok) : ∃ pdu, t.response.pdu = some pdu := by
  cases hlookup : lookup fc with
  | none =>
    cases (exec_encode_unlisted hlookup o s).symm.trans h
    cases hok
  | some d =>
    rw [exec_encode_listed hlookup, runEncode] at h
    split at h
    · exact pdu_of_finish_ok (fun _ => encodeResults_pdu) h hok
    · cases h

theorem exec_parseResponse_pdu {frame : Bytes} {s t : State} (h : exec (.parseResponse frame) s = .next t)
    (hok : t.response.status = .ok) : ∃ pdu, t.response.pdu = some pdu :=
  pdu_of_finish_ok (fun _ => parsedResponse_pdu) h hok

theorem raiseError_status_ne_ok (e : Error) (s : State) : (raiseError e s).response.status ≠ .ok := error_status_ne_ok e

/-! ### REQUEST and RESPONSE, command by command (R93) -/

section PseudoCommands

variable {slave fc : Int} {o : EncodeOperands} {ctx : Byte × Word} {frame pdu : Bytes} {s t : State}

theorem issue_encode (fc : Int) (o : EncodeOperands) (s : State) :
    issue (encode (.encode fc o)) s = exec (.encode fc o) s :=
  exec_decodeEncode (encode (.encode fc o)) s

theorem issue_decode (fc qty : Int) (data : Bytes) (s : State) :
    issue { op := 2, fc, qty, data } s = exec (.decode fc qty data) s :=
  exec_decodeDecode { op := 2, fc, qty, data } s

theorem requestMacro_refused {r : Refusal} (h : exec (.encode fc o) s = .refused r) :
    requestMacro slave fc o s = .refused r := by
  rw [requestMacro, issue_encode, h]

theorem requestMacro_error (h : exec (.encode fc o) s = .next t) (hstatus : t.response.status ≠ .ok) :
    requestMacro slave fc o s = .next t := by
  rw [requestMacro, issue_encode, h]
  simp only
  split
  · exact absurd ‹_› hstatus
  · rfl

theorem requestMacro_ok (h : exec (.encode fc o) s = .next t) (hok : t.response.status = .ok)
    (hpdu : t.response.pdu = some pdu) : requestMacro slave fc o s = exec (.buildRequest pdu slave) t := by
  rw [requestMacro, issue_encode, h]
  simp only [hok, hpdu]
  rfl

theorem responseMacro_error (h : exec (.parseResponse frame) s = .next t) (hstatus : t.response.status ≠ .ok) :
    responseMacro ctx frame s = .next t := by
  rw [responseMacro, show issue { op := 4, data := frame } s = .next t from h]
  simp only
  split
  · exact absurd ‹_› hstatus
  · rfl

theorem responseMacro_ok (h : exec (.parseResponse frame) s = .next t) (hok : t.response.status = .ok)
    (hpdu : t.response.pdu = some pdu) :
    responseMacro ctx frame s = exec (.decode ctx.1.toNat ctx.2.toNat pdu) t := by
  rw [responseMacro, show issue { op := 4, data := frame } s = .next t from h]
  simp only [hok, hpdu, issue_decode]

end PseudoCommands

/-! ### A read of holding registers -/

theorem addr8_natCast_toNat (a : Byte) : addr8 a.toNat = .ok a := by
  have ha := a.isLt
  rw [addr8_ok (by omega), BitVec.ofInt_natCast, BitVec.ofNat_toNat, BitVec.setWidth_eq]

theorem exec_encode_readHoldingRegisters {start qty : Nat} (hstart : start ≤ 65535) (hqty : qty ≤ 65535) (s : State) :
    ∃ out : Response, exec (.encode 0x03 { start := start, qty := qty }) s = .next (complete out s) ∧
      out.status = .ok ∧ out.pdu = some (0x03 :: (twoBytes start ++ twoBytes qty)) := by
  obtain ⟨a, b, c, d, hab, hcd⟩ := exists_twoFieldValues (v := start) (w := qty) (decide_eq_true (by omega))
    (decide_eq_true (by omega))
  rw [← hab, ← hcd, twoBytes_fieldValue, twoBytes_fieldValue, exec_encode_listed lookup_0x03]
  exact ⟨_, runEncode_ok rfl (requestPdu_reqRead rfl a b c d) s, rfl, rfl⟩

theorem exec_encode_readHoldingRegisters_fieldRange {start : Nat} (hstart : start ≤ 65535) {qty : Int}
    (hqty : 65535 < qty) (s : State) :
    exec (.encode 0x03 { start := start, qty := qty }) s = .next (raiseError (.invalidArgument .fieldRange) s) := by
  have hpdu : requestPdu readHoldingRegisters { start := start, qty := qty } =
      .error (.invalidArgument .fieldRange) := by
    simp only [requestPdu, readHoldingRegisters, field16_ok (v := start) (by omega),
      field16_error (v := qty) (by omega)]
    rfl
  exact (exec_encode_listed lookup_0x03 _ s).trans (runEncode_error rfl hpdu s)

section ReadData

variable {qty : Nat} (hqty : qty ≤ 127) {data : Bytes} (hdata : data.length = 2 * qty)
include hqty hdata

theorem byteCount_eq_length : (BitVec.ofNat 8 (2 * qty)).toNat = data.length :=
  (toNat_ofNat_byte (by omega)).trans hdata.symm

/-- The statement's outcome of RSP_WORDS, on data of the size that the quantity fixes, is UNPACK's (R207). -/
theorem wordsOutcome_eq_unpackWords :
    wordsOutcome qty (BitVec.ofNat 8 (2 * qty) :: data) = { valuesOut := some (unpackWords qty data) } := by
  rw [wordsOutcome, countedData, if_pos (byteCount_eq_length hqty hdata), if_pos hdata]
  rfl

theorem decodePayload_rspWords (fc : Byte) :
    decodePayload .rspWords (fc :: BitVec.ofNat 8 (2 * qty) :: data) qty = .ok (unpackWords qty data) := by
  have hread : readData (fc :: BitVec.ofNat 8 (2 * qty) :: data) = .ok data := by
    rw [readData, if_neg (by simp)]
    exact if_neg (not_not.mpr (byteCount_eq_length hqty hdata))
  have hlayout : requireLayout (data.length == 2 * qty) = .ok () := if_pos (beq_iff_eq.mpr hdata)
  calc decodePayload .rspWords (fc :: BitVec.ofNat 8 (2 * qty) :: data) qty
    _ = (requireLayout (data.length == 2 * qty) >>= fun _ => pure (unpackWords qty data)) := by
      simp only [decodePayload, hread]
      rfl
    _ = .ok (unpackWords qty data) := by
      rw [hlayout]
      rfl

/-- DECODE of a read of holding registers with the data bytes its quantity asks for. -/
theorem exec_decode_readHoldingRegisters (s : State) :
    exec (.decode 0x03 qty (0x03 :: BitVec.ofNat 8 (2 * qty) :: data)) s =
      .next (complete (wordsOutcome qty (BitVec.ofNat 8 (2 * qty) :: data)) s) := by
  have hresults : decodeResults readHoldingRegisters qty (0x03 :: BitVec.ofNat 8 (2 * qty) :: data) =
      .ok { valuesOut := some (unpackWords qty data) } := by
    rw [decodeResults, checkQuantity_ok fun _ => by omega, checkException_normal (by decide),
      show readHoldingRegisters.responseLayout = .rspWords from rfl, Int.toNat_natCast,
      decodePayload_rspWords hqty hdata]
    rfl
  rw [exec_decode_listed lookup_0x03, runDecode, hresults, wordsOutcome_eq_unpackWords hqty hdata, finish_ok]

/-- RESPONSE of a frame from the recorded slave decodes the words of a read of holding registers. -/
theorem responseMacro_readHoldingRegisters {t : State} {a : Byte} (hvalid : t.lastValid = true) (ha : t.lastAddr = a) :
    responseMacro (0x03, BitVec.ofNat 16 qty) (buildFrame .lowFirst a (0x03 :: BitVec.ofNat 8 (2 * qty) :: data)) t =
      .next (complete (wordsOutcome qty (BitVec.ofNat 8 (2 * qty) :: data))
        (complete { pdu := some (0x03 :: BitVec.ofNat 8 (2 * qty) :: data) } t)) := by
  have hword : (BitVec.ofNat 16 qty).toNat = qty := by rw [BitVec.toNat_ofNat]; omega
  rw [responseMacro_ok (exec_parseResponse_buildFrame hvalid ha _) rfl rfl,
    ← exec_decode_readHoldingRegisters hqty hdata, hword]
  rfl

end ReadData

/-- REQUEST of a read of holding registers frames its PDU and records the slave. -/
theorem requestMacro_readHoldingRegisters (a : Byte) {start qty : Nat} (hstart : start ≤ 65535) (hqty : qty ≤ 65535)
    (s : State) :
    ∃ out, requestMacro a.toNat 0x03 { start := start, qty := qty } s = .next (complete
      { frame := some (buildFrame .lowFirst a (0x03 :: (twoBytes start ++ twoBytes qty))) }
      (recordAddress a (complete out s))) := by
  obtain ⟨out, hencode, hok, hpdu⟩ := exec_encode_readHoldingRegisters hstart hqty s
  refine ⟨out, ?_⟩
  rw [requestMacro_ok hencode hok hpdu, exec_buildRequest_ok (addr8_natCast_toNat a)]
  rfl

/-- A completed command counts one (R36). -/
theorem index_of_exec_next {i : Instr} {s t : State} (h : exec i s = .next t) : t.index = s.index + 1 := by
  obtain ⟨hindex, -⟩ := onlyRequestsWriteTheRegister i s t h
  exact hindex

/-- Settles O59: each pseudo-command is its first command and, on STATUS OK, its second. -/
theorem transactionMacrosPairTheCommands : Obligations.TransactionMacrosPairTheCommands := by
  refine ⟨fun slave fc o s => ⟨fun r => requestMacro_refused, fun t h => ⟨fun hstatus => ?_, fun hok => ?_⟩⟩,
    fun ctx frame s t h => ⟨fun hstatus => ?_, fun hok => ?_⟩, fun a start qty s hstart hqty => ⟨?_, ?_⟩⟩
  · exact ⟨requestMacro_error h hstatus, index_of_exec_next h⟩
  · obtain ⟨pdu, hpdu⟩ := exec_encode_pdu h hok
    exact ⟨pdu, hpdu, requestMacro_ok h hok hpdu⟩
  · exact ⟨responseMacro_error h hstatus, index_of_exec_next h⟩
  · obtain ⟨pdu, hpdu⟩ := exec_parseResponse_pdu h hok
    exact ⟨pdu, hpdu, responseMacro_ok h hok hpdu⟩
  · obtain ⟨out, hrequest⟩ := requestMacro_readHoldingRegisters a hstart (hqty.trans (by decide)) s
    refine ⟨_, hrequest, rfl, rfl, rfl, rfl, fun data hdata => ?_⟩
    refine ⟨_, responseMacro_readHoldingRegisters hqty hdata rfl rfl, ?_⟩
    refine ⟨rfl, ?_, rfl, fun b hb => ?_⟩
    · rw [complete_response, wordsOutcome_eq_unpackWords hqty hdata]
    · exact ⟨_, responseMacro_error (exec_parseResponse_addrMismatch rfl hb _ _) (raiseError_status_ne_ok _ _),
        rfl, rfl⟩
  · exact ⟨_, requestMacro_error (exec_encode_readHoldingRegisters_fieldRange hstart (by decide) s)
      (raiseError_status_ne_ok _ _), rfl, rfl, rfl, rfl⟩

end Sys2Proof.Machine
end

section
/-! PROOFS of the CRC family (40_crc.md). First the CRC of R130 as a serial register (O10), then its residue, which follows
by feeding the register its own bits (O11), and last the command CRC16 (O9). -/

namespace Sys2Proof.Machine

open Safety

/-! ### The register fed one bit at a time -/

/-- `n` shifts of the register with an input word folded in are `n` serial steps on the word's low bits, with the rest of
the word still folded in (R130). -/
theorem crcShifts_xor (n : Nat) (c x : Word) :
    crcShifts n (c ^^^ x) = ((List.range n).map x.getLsbD).foldl serialBit c ^^^ (x >>> n) := by
  induction n generalizing c x with
  | zero => simp [crcShifts]
  | succ n ih =>
    have hbits : (x >>> 1).getLsbD = x.getLsbD ∘ Nat.succ := by
      funext i
      rw [BitVec.getLsbD_ushiftRight, Nat.add_comm 1 i]
      rfl
    rw [crcShifts, crcShift_xor, ih, hbits, List.range_succ_eq_map, List.map_cons, List.map_map, List.foldl_cons,
      ← BitVec.shiftRight_add, Nat.add_comm 1 n]

/-- One byte is eight serial steps: the eight shifts use up the input, and nothing of it is left folded in. -/
theorem crcByte_eq_serial (c : Word) (b : Byte) : crcByte c b = ((List.range 8).map b.getLsbD).foldl serialBit c := by
  have hrest : b.zeroExtend 16 >>> 8 = 0#16 := by
    apply BitVec.eq_of_toNat_eq
    simp [Nat.shiftRight_eq_div_pow]
    omega
  have hbits : (List.range 8).map (b.zeroExtend 16).getLsbD = (List.range 8).map b.getLsbD := by
    refine List.map_congr_left fun i hi => ?_
    have hi16 : i < 16 := (List.mem_range.mp hi).trans (by decide)
    rw [BitVec.getLsbD_setWidth, decide_eq_true hi16, Bool.true_and]
  rw [crcByte, crcShifts_xor, hrest, hbits, BitVec.xor_zero]

theorem foldl_crcByte_eq_serial (bs : Bytes) (c : Word) : bs.foldl crcByte c = (serialBits bs).foldl serialBit c := by
  rw [serialBits, List.foldl_flatMap]
  simp only [← crcByte_eq_serial]

/-- Settles O10: byte by byte, from the initial value. -/
theorem crcEqualsSerialRegister : Obligations.CrcEqualsSerialRegister :=
  fun bs => foldl_crcByte_eq_serial bs config.crcInit

/-! ### The residue -/

/-- A register fed its own low bits only shifts them out: by `crcShifts_xor`, since the register folded into itself is 0
and stays 0. -/
theorem foldl_serialBit_self (n : Nat) (c : Word) : ((List.range n).map c.getLsbD).foldl serialBit c = c >>> n := by
  have hzero : ((List.range n).map c.getLsbD).foldl serialBit c ^^^ (c >>> n) = 0#16 := by
    rw [← crcShifts_xor, BitVec.xor_self]
    exact crcShifts_zero_register n
  exact BitVec.xor_eq_zero_iff.mp hzero

/-- The trailer, low byte first, is the register's bits in the order a serial register takes them (R63). -/
theorem serialBits_crcTrailer_lowFirst (c : Word) :
    serialBits (crcTrailer .lowFirst c) = (List.range 16).map c.getLsbD := by
  simp [serialBits, crcTrailer, List.range_succ]

/-- Settles O11: the trailer feeds the register its own sixteen bits. -/
theorem crcResidueIsZero : Obligations.CrcResidueIsZero := by
  intro bs
  calc crc16 (bs ++ crcTrailer .lowFirst (crc16 bs))
    _ = (crcTrailer .lowFirst (crc16 bs)).foldl crcByte (crc16 bs) := List.foldl_append
    _ = crc16 bs >>> 16 := by
        rw [foldl_crcByte_eq_serial, serialBits_crcTrailer_lowFirst, foldl_serialBit_self]
    _ = 0#16 := BitVec.ushiftRight_eq_zero le_rfl

/-! ### The command CRC16 (R131) -/

theorem exec_crc16 (data : Bytes) (s : State) :
    exec (.crc16 data) s = .next (complete { crc := some (crc16 data) } s) := by
  rw [exec, execCrc16, finish_ok]

/-- Settles O9: CRC16 completes with its result, and the fold over no bytes is the initial value. -/
theorem crc16AnswersTheCrc : Obligations.Crc16AnswersTheCrc :=
  ⟨fun data s => exec_crc16 data s, fun s => exec_crc16 [] s⟩

end Sys2Proof.Machine
end

section
/-! PROOFS of the request-encoding family (41_codec_encode.md). First ENCODE's answer as a function of the PDU its
layout assembles, then that answer for each layout of R84 as the chain of checks R154 to R164 list, then the obligations O13 to
O23. -/

namespace Sys2Proof.Machine

open Safety

/-! ### ENCODE's answer -/

/-- What ENCODE answers once its PDU is assembled (R150, R152). -/
def encodedResponse (d : Descriptor) (o : EncodeOperands) (pdu : Bytes) : Response :=
  { pdu := some pdu
    expLen := some (o.lenOvr.getD (expectedLength d.family o))
    ctx := some (decodeContext d o) }

/-- What ENCODE answers with the PDU assembled, or with the error of the field that does not fit (R150, R280). -/
def pduAnswer (d : Descriptor) (o : EncodeOperands) : Except Error Bytes → Response
  | .ok pdu => encodedResponse d o pdu
  | .error e => errorResponse e

section Answers

variable {fc : Int} {d : Descriptor} {o : EncodeOperands} {i : Instr} {s : State}

theorem runEncode_eq_pduAnswer (hpre : preconditionHolds d o = true) (s : State) :
    runEncode d o s = .next (complete (pduAnswer d o (requestPdu d o)) s) := by
  cases hpdu : requestPdu d o with
  | ok pdu => exact runEncode_ok hpre hpdu s
  | error e => exact runEncode_error hpre hpdu s

theorem runEncode_refused (hpre : preconditionHolds d o = false) (s : State) :
    runEncode d o s = .refused .precondition :=
  if_neg (ne_true_of_eq_false hpre)

/-- The general ENCODE of a listed function code and that function's row complete with one and the same answer. -/
theorem answers_encode_and_row (hd : lookup fc = some d) (hrow : exec i s = runEncode d o s)
    (hpre : preconditionHolds d o = true) {r : Response} (hr : pduAnswer d o (requestPdu d o) = r) :
    Answers (.encode fc o) s r ∧ Answers i s r := by
  have hrun : runEncode d o s = .next (complete r s) := by rw [runEncode_eq_pduAnswer hpre, hr]
  exact ⟨(exec_encode_listed hd o s).trans hrun, hrow.trans hrun⟩

/-- Neither of them has an outcome without the caller's precondition (R153). -/
theorem refused_encode_and_row (hd : lookup fc = some d) (hrow : exec i s = runEncode d o s)
    (hpre : preconditionHolds d o = false) :
    exec (.encode fc o) s = .refused .precondition ∧ exec i s = .refused .precondition := by
  have hrun := runEncode_refused hpre s
  exact ⟨(exec_encode_listed hd o s).trans hrun, hrow.trans hrun⟩

end Answers

/-! ### The checks of each layout, in order

The field assemblers' equations and the two rules for a check turn the assembled PDU into the chain of checks; the PDUs
and the error outcomes at its ends then agree by unfolding. -/

section Layouts

variable {d : Descriptor} (o : EncodeOperands)

/-- A field that raises outside its range is one check of the answer. -/
theorem pduAnswer_bind_outside {c : Prop} [Decidable c] (e : Error) (x : Bytes) (f : Bytes → Except Error Bytes) :
    pduAnswer d o ((if c then .error e else .ok x) >>= f) = if c then errorResponse e else pduAnswer d o (f x) := by
  split <;> rfl

/-- So is a field written by the values it accepts. -/
theorem pduAnswer_bind_inside {c : Prop} [Decidable c] (e : Error) (x : Bytes) (f : Bytes → Except Error Bytes) :
    pduAnswer d o ((if c then .ok x else .error e) >>= f) = if c then pduAnswer d o (f x) else errorResponse e := by
  split <;> rfl

theorem pduAnswer_reqRead (h : d.requestLayout = .reqRead) :
    pduAnswer d o (requestPdu d o) =
      if outsideWord o.start then errorOutcome .invalidArgument .fieldRange
      else if outsideWord o.qty then errorOutcome .invalidArgument .fieldRange
      else encodedResponse d o (d.fc :: (twoBytes o.start ++ twoBytes o.qty)) := by
  simp only [requestPdu, h, field16_eq, pduAnswer_bind_outside]
  rfl

theorem pduAnswer_reqWsc (h : d.requestLayout = .reqWsc) :
    pduAnswer d o (requestPdu d o) =
      if outsideWord o.start then errorOutcome .invalidArgument .fieldRange
      else encodedResponse d o
        (d.fc :: (twoBytes o.start ++ (if o.value = 0 then [0x00, 0x00] else [0xFF, 0x00]))) := by
  simp only [requestPdu, h, field16_eq, coil16_eq, pduAnswer_bind_outside]
  rfl

theorem pduAnswer_reqWsr (h : d.requestLayout = .reqWsr) :
    pduAnswer d o (requestPdu d o) =
      if outsideWord o.start then errorOutcome .invalidArgument .fieldRange
      else if registerValue o.value then encodedResponse d o (d.fc :: (twoBytes o.start ++ twoBytes o.value))
      else errorOutcome .invalidArgument .valueRange := by
  simp only [requestPdu, h, field16_eq, val16_eq, pduAnswer_bind_outside, pduAnswer_bind_inside]
  rfl

theorem pduAnswer_reqFcOnly (h : d.requestLayout = .reqFcOnly) :
    pduAnswer d o (requestPdu d o) = encodedResponse d o [d.fc] := by
  simp only [requestPdu, h]
  rfl

theorem pduAnswer_reqDiag (h : d.requestLayout = .reqDiag) :
    pduAnswer d o (requestPdu d o) =
      if outsideWord o.start then errorOutcome .invalidArgument .fieldRange
      else if ∀ v ∈ o.values, 0 ≤ v ∧ v ≤ 255 then
        encodedResponse d o (d.fc :: (twoBytes o.start ++ o.values.map (BitVec.ofInt 8)))
      else errorOutcome .invalidArgument .dataByteRange := by
  simp only [requestPdu, h, field16_eq, assembleEach_byte8, pduAnswer_bind_outside, pduAnswer_bind_inside]
  rfl

theorem natCast_ceil8_toNat {q : Int} (hq : 0 ≤ q) : (ceil8 q.toNat : Int) = (q + 7) / 8 := by
  unfold ceil8
  omega

theorem pduAnswer_reqWmc (h : d.requestLayout = .reqWmc) (hqty : 0 ≤ o.qty) :
    pduAnswer d o (requestPdu d o) =
      if outsideWord o.start then errorOutcome .invalidArgument .fieldRange
      else if outsideWord o.qty then errorOutcome .invalidArgument .fieldRange
      else if 255 < (o.qty + 7) / 8 then errorOutcome .invalidArgument .byteCountRange
      else encodedResponse d o (d.fc ::
        (twoBytes o.start ++ twoBytes o.qty ++ [BitVec.ofInt 8 ((o.qty + 7) / 8)] ++ packBits o.values)) := by
  simp only [requestPdu, h, field16_eq, bc8_eq, natCast_ceil8_toNat hqty, pduAnswer_bind_outside]
  rfl

theorem pduAnswer_reqWmr (h : d.requestLayout = .reqWmr) (hqty : 0 ≤ o.qty) :
    pduAnswer d o (requestPdu d o) =
      if outsideWord o.start then errorOutcome .invalidArgument .fieldRange
      else if outsideWord o.qty then errorOutcome .invalidArgument .fieldRange
      else if 255 < 2 * o.qty then errorOutcome .invalidArgument .byteCountRange
      else if ∀ v ∈ o.values, registerValue v then
        encodedResponse d o (d.fc ::
          (twoBytes o.start ++ twoBytes o.qty ++ [BitVec.ofInt 8 (2 * o.qty)] ++ o.values.flatMap twoBytes))
      else errorOutcome .invalidArgument .valueRange := by
  have htwice : ((2 * o.qty.toNat : Nat) : Int) = 2 * o.qty := by omega
  simp only [requestPdu, h, field16_eq, bc8_eq, htwice, assembleEach_val16,
    pduAnswer_bind_outside, pduAnswer_bind_inside]
  rfl

theorem pduAnswer_reqRwmr (h : d.requestLayout = .reqRwmr) :
    pduAnswer d o (requestPdu d o) =
      if outsideWord o.start then errorOutcome .invalidArgument .fieldRange
      else if outsideWord o.qty then errorOutcome .invalidArgument .fieldRange
      else if outsideWord o.waddr then errorOutcome .invalidArgument .fieldRange
      else if outsideWord o.values.length then errorOutcome .invalidArgument .fieldRange
      else if 255 < 2 * (o.values.length : Int) then errorOutcome .invalidArgument .byteCountRange
      else if ∀ v ∈ o.values, registerValue v then
        encodedResponse d o (d.fc ::
          (twoBytes o.start ++ twoBytes o.qty ++ twoBytes o.waddr ++ twoBytes o.values.length ++
            [BitVec.ofInt 8 (2 * o.values.length)] ++ o.values.flatMap twoBytes))
      else errorOutcome .invalidArgument .valueRange := by
  simp only [requestPdu, h, field16_eq, bc8_eq, Nat.cast_mul, Nat.cast_ofNat, assembleEach_val16,
    pduAnswer_bind_outside, pduAnswer_bind_inside]
  rfl

end Layouts

/-! ### Functions without a precondition -/

/-- Settles O13: READ_COILS has the layout REQ_READ. -/
theorem encodeReadCoils : Obligations.EncodeReadCoils := fun o _ =>
  answers_encode_and_row lookup_0x01 rfl rfl (pduAnswer_reqRead o rfl)

/-- Settles O14: READ_DISCRETE_INPUTS has the layout REQ_READ. -/
theorem encodeReadDiscreteInputs : Obligations.EncodeReadDiscreteInputs := fun o _ =>
  answers_encode_and_row lookup_0x02 rfl rfl (pduAnswer_reqRead o rfl)

/-- Settles O15: READ_HOLDING_REGISTERS has the layout REQ_READ. -/
theorem encodeReadHoldingRegisters : Obligations.EncodeReadHoldingRegisters := fun o _ =>
  answers_encode_and_row lookup_0x03 rfl rfl (pduAnswer_reqRead o rfl)

/-- Settles O16: READ_INPUT_REGISTERS has the layout REQ_READ. -/
theorem encodeReadInputRegisters : Obligations.EncodeReadInputRegisters := fun o _ =>
  answers_encode_and_row lookup_0x04 rfl rfl (pduAnswer_reqRead o rfl)

/-- Settles O17: WRITE_SINGLE_COIL has the layout REQ_WSC. -/
theorem encodeWriteSingleCoil : Obligations.EncodeWriteSingleCoil := fun o _ =>
  answers_encode_and_row lookup_0x05 rfl rfl (pduAnswer_reqWsc o rfl)

/-- Settles O18: WRITE_SINGLE_REGISTER has the layout REQ_WSR. -/
theorem encodeWriteSingleRegister : Obligations.EncodeWriteSingleRegister := fun o _ =>
  answers_encode_and_row lookup_0x06 rfl rfl (pduAnswer_reqWsr o rfl)

/-- Settles O19: READ_EXCEPTION_STATUS is its function code alone, so there is no check to fail. -/
theorem encodeReadExceptionStatus : Obligations.EncodeReadExceptionStatus := fun o _ =>
  answers_encode_and_row lookup_0x07 rfl rfl (pduAnswer_reqFcOnly o rfl)

/-- Settles O20: DIAGNOSTIC has the layout REQ_DIAG. -/
theorem encodeDiagnostic : Obligations.EncodeDiagnostic := fun o _ =>
  answers_encode_and_row lookup_0x08 rfl rfl (pduAnswer_reqDiag o rfl)

/-- Settles O23: READ_WRITE_MULTIPLE_REGISTERS has the layout REQ_RWMR, whose counts come from VALUES alone. -/
theorem encodeReadWriteMultipleRegisters : Obligations.EncodeReadWriteMultipleRegisters := fun o _ =>
  answers_encode_and_row lookup_0x17 rfl rfl (pduAnswer_reqRwmr o rfl)

/-! ### The multiple writes and their precondition (R153) -/

theorem preconditionHolds_writeMultipleCoils (o : EncodeOperands) :
    preconditionHolds writeMultipleCoils o =
      decide ((o.values.length : Int) = o.qty ∧ ∀ v ∈ o.values, v = 0 ∨ v = 1) := by
  rw [Bool.eq_iff_iff]
  simp [preconditionHolds, writeMultipleCoils]

theorem preconditionHolds_writeMultipleRegisters (o : EncodeOperands) :
    preconditionHolds writeMultipleRegisters o = decide ((o.values.length : Int) = o.qty) := rfl

/-- Packed values of 0 and 1 are their own bits, and the pad bits are 0 (R64). -/
theorem packBits_getLsbD_eq_one {bits : List Int} (hbits : ∀ v ∈ bits, v = 0 ∨ v = 1) (k : Nat) :
    ((packBits bits).getD (k / 8) 0).getLsbD (k % 8) = decide (bits.getD k 0 = 1) := by
  have hbit : bits.getD k 0 = 0 ∨ bits.getD k 0 = 1 := by
    by_cases hk : k < bits.length
    · rw [List.getD_eq_getElem _ _ hk]
      exact hbits _ (List.getElem_mem hk)
    · exact .inl (List.getD_eq_default _ _ (Nat.le_of_not_lt hk))
  rw [packBits_getLsbD]
  rcases hbit with h | h <;> (rw [h]; rfl)

/-- Settles O21: the packed coils are PACK's bytes. -/
theorem encodeWriteMultipleCoils : Obligations.EncodeWriteMultipleCoils := by
  intro o s
  have hpre := preconditionHolds_writeMultipleCoils o
  split
  · rename_i h
    obtain ⟨hcount, hbits⟩ := h
    refine ⟨packBits o.values, packBits_length o.values, fun k _ => packBits_getLsbD_eq_one hbits k, ?_⟩
    exact answers_encode_and_row lookup_0x0F rfl (hpre.trans (decide_eq_true ⟨hcount, hbits⟩))
      (pduAnswer_reqWmc o rfl (by omega))
  · rename_i h
    exact refused_encode_and_row lookup_0x0F rfl (hpre.trans (decide_eq_false h))

/-- Settles O22: with the precondition QTY is a count, so the byte count is twice QTY. -/
theorem encodeWriteMultipleRegisters : Obligations.EncodeWriteMultipleRegisters := by
  intro o s
  have hpre := preconditionHolds_writeMultipleRegisters o
  split
  · rename_i hcount
    exact answers_encode_and_row lookup_0x10 rfl (hpre.trans (decide_eq_true hcount))
      (pduAnswer_reqWmr o rfl (by omega))
  · rename_i h
    exact refused_encode_and_row lookup_0x10 rfl (hpre.trans (decide_eq_false h))

end Sys2Proof.Machine
end

section
/-! PROOFS of the response-decoding family (42_codec_decode.md). First DECODE's answer for each layout of R85, then the
chain of checks R200 and R202 put before it, from which O25 to O33 and O37 follow, then packed coils (O39), and last
what a decode that raises nothing returns (O34, O38). -/

namespace Sys2Proof.Machine

open Safety

/-! ### The answer of each response layout -/

/-- What DECODE answers with the values of its decode rule, or with the error the rule raises (R200, R201, R280). -/
def valuesAnswer : Except Error (List Nat) → Response
  | .ok vs => { valuesOut := some vs }
  | .error e => errorResponse e

/-- The outcome a normal response layout fixes for a quantity, on the bytes after the function code (R85). -/
def layoutOutcome : ResponseLayout → Nat → Bytes → Response
  | .rspBits, q => bitsOutcome q
  | .rspWords, q => wordsOutcome q
  | .rspEcho, _ => echoOutcome
  | .rspStatus, _ => statusOutcome
  | .rspDiag, _ => diagOutcome

theorem readData_cons (b bc : Byte) (data : Bytes) :
    readData (b :: bc :: data) =
      if bc.toNat = data.length then .ok data else .error (.invalidResponseFrame .byteCountMismatch) :=
  ite_not ..

/-- A rule that reads counted data answers the two failures of R204, or else what it makes of the data. -/
theorem valuesAnswer_readData (b : Byte) (rest : Bytes) (f : Bytes → Except Error (List Nat)) :
    valuesAnswer (readData (b :: rest) >>= f) = countedData rest fun data => valuesAnswer (f data) := by
  cases rest with
  | nil => rfl
  | cons bc data =>
    rw [readData_cons, countedData]
    split <;> rfl

theorem valuesAnswer_requireLayout (fits : Bool) (vs : List Nat) :
    valuesAnswer (requireLayout fits >>= fun _ => pure vs) =
      if fits then { valuesOut := some vs } else errorOutcome .invalidResponseFrame .layoutMismatch := by
  cases fits <;> rfl

/-- Each decode rule reads only what follows the function code, and answers its layout's outcome (R203). -/
theorem valuesAnswer_decodePayload (layout : ResponseLayout) (b : Byte) (rest : Bytes) (q : Nat) :
    valuesAnswer (decodePayload layout (b :: rest) q) = layoutOutcome layout q rest := by
  cases layout with
  | rspBits =>
    simp only [decodePayload, valuesAnswer_readData, valuesAnswer_requireLayout, beq_iff_eq, unpackBits,
      funext (bitAt_eq _)]
    rfl
  | rspWords =>
    simp only [decodePayload, valuesAnswer_readData, valuesAnswer_requireLayout, beq_iff_eq]
    rfl
  | rspEcho =>
    match rest with
    | [] | [_] | [_, _] | [_, _, _] | [_, _, _, _] => rfl
    | _ :: _ :: _ :: _ :: _ :: _ => rfl
  | rspStatus =>
    match rest with
    | [] | [_] => rfl
    | _ :: _ :: _ => rfl
  | rspDiag =>
    match rest with
    | [] | [_] => rfl
    | _ :: _ :: _ => rfl

/-! ### The checks before it, in order -/

/-- DECODE's answer for a listed function: QTY where the function reads it, then the PDU (R200, R202). -/
def decodeOutcome (d : Descriptor) (qty : Int) (p : Bytes) : Response :=
  if d.family.readFlag = true ∧ outsideWord qty then errorOutcome .invalidArgument .fieldRange
  else checkedPdu p (layoutOutcome d.responseLayout qty.toNat)

theorem checkQuantity_eq (d : Descriptor) (qty : Int) :
    checkQuantity d qty =
      if d.family.readFlag = true ∧ outsideWord qty then .error (.invalidArgument .fieldRange) else .ok () :=
  if_congr (and_congr_right fun _ => by omega) rfl rfl

section Exceptions

variable {b : Byte} (normal : Bytes → Response)

theorem checkedPdu_of_normal (h : b.getLsbD 7 = false) (rest : Bytes) : checkedPdu (b :: rest) normal = normal rest :=
  if_neg (ne_true_of_eq_false h)

theorem checkedPdu_of_short_exception (h : b.getLsbD 7 = true) :
    checkedPdu [b] normal = errorOutcome .invalidResponseFrame .tooShort :=
  if_pos h

theorem checkedPdu_of_exception (h : b.getLsbD 7 = true) (code : Byte) (rest : Bytes) :
    checkedPdu (b :: code :: rest) normal = slaveOutcome code :=
  if_pos h

end Exceptions

theorem checkException_short {b : Byte} (h : b.getLsbD 7 = true) :
    checkException [b] = .error (.invalidResponseFrame .tooShort) := by
  simp [checkException, isException, h]

/-- R202's check and then the decode rule. -/
theorem valuesAnswer_checkException (layout : ResponseLayout) (q : Nat) (p : Bytes) :
    valuesAnswer (checkException p >>= fun _ => decodePayload layout p q) = checkedPdu p (layoutOutcome layout q) := by
  cases p with
  | nil => rfl
  | cons b rest =>
    cases hb : b.getLsbD 7 with
    | false =>
      rw [checkException_normal hb, checkedPdu_of_normal _ hb]
      exact valuesAnswer_decodePayload layout b rest q
    | true =>
      cases rest with
      | nil =>
        rw [checkException_short hb, checkedPdu_of_short_exception _ hb]
        rfl
      | cons code rest =>
        rw [checkException_slave hb, checkedPdu_of_exception _ hb]
        rfl

/-- DECODE's pseudocode, its result being the answer of the values. -/
theorem finish_bind_values (x : Except Error (List Nat)) (s : State) :
    finish (x >>= fun vs => pure { valuesOut := some vs }) s = .next (complete (valuesAnswer x) s) := by
  cases x <;> rfl

theorem runDecode_eq (d : Descriptor) (qty : Int) (p : Bytes) (s : State) :
    runDecode d qty p s = .next (complete (decodeOutcome d qty p) s) := by
  rw [runDecode, decodeResults, decodeOutcome, checkQuantity_eq]
  split
  · rfl
  · rw [← valuesAnswer_checkException, ← finish_bind_values, bind_assoc]
    rfl

section Answers

variable {fc qty : Int} {d : Descriptor} {p : Bytes} {i : Instr} {s : State}

theorem answers_decode (hd : lookup fc = some d) : Answers (.decode fc qty p) s (decodeOutcome d qty p) :=
  (exec_decode_listed hd qty p s).trans (runDecode_eq d qty p s)

/-- The general DECODE of a function that reads QTY, and that function's row, check QTY and then the PDU. -/
theorem answers_counted (hd : lookup fc = some d) (hrow : exec i s = runDecode d qty p s)
    (hflag : d.family.readFlag = true) :
    let r : Response :=
      if outsideWord qty then errorOutcome .invalidArgument .fieldRange
      else checkedPdu p (layoutOutcome d.responseLayout qty.toNat)
    Answers (.decode fc qty p) s r ∧ Answers i s r := by
  have hr : decodeOutcome d qty p = if outsideWord qty then errorOutcome .invalidArgument .fieldRange
      else checkedPdu p (layoutOutcome d.responseLayout qty.toNat) := by
    simp only [decodeOutcome, hflag, true_and]
  exact hr ▸ ⟨answers_decode hd, hrow.trans (runDecode_eq d qty p s)⟩

/-- The general DECODE of a function that does not read QTY, and that function's row, check the PDU alone. -/
theorem answers_uncounted (hd : lookup fc = some d) (hrow : exec i s = runDecode d 0 p s)
    (hflag : d.family.readFlag = false) :
    Answers (.decode fc qty p) s (checkedPdu p (layoutOutcome d.responseLayout 0)) ∧
      Answers i s (checkedPdu p (layoutOutcome d.responseLayout 0)) := by
  have hrun : runDecode d 0 p s = .next (complete (checkedPdu p (layoutOutcome d.responseLayout 0)) s) := by
    simp only [runDecode_eq, decodeOutcome, hflag, Bool.false_eq_true, false_and, if_false, Int.toNat_zero]
  have hdecode : exec (.decode fc qty p) s = runDecode d 0 p s := by
    rw [exec_decode_listed hd, ← runDecode_qty_ignored hd, hflag]
    rfl
  exact ⟨hdecode.trans hrun, hrow.trans hrun⟩

end Answers

/-- Settles O25: READ_COILS reads QTY and has the layout RSP_BITS. -/
theorem decodeReadCoils : Obligations.DecodeReadCoils := fun _ _ _ =>
  answers_counted lookup_0x01 rfl rfl

/-- Settles O26: READ_DISCRETE_INPUTS reads QTY and has the layout RSP_BITS. -/
theorem decodeReadDiscreteInputs : Obligations.DecodeReadDiscreteInputs := fun _ _ _ =>
  answers_counted lookup_0x02 rfl rfl

/-- Settles O27: READ_HOLDING_REGISTERS reads QTY and has the layout RSP_WORDS. -/
theorem decodeReadHoldingRegisters : Obligations.DecodeReadHoldingRegisters := fun _ _ _ =>
  answers_counted lookup_0x03 rfl rfl

/-- Settles O28: READ_INPUT_REGISTERS reads QTY and has the layout RSP_WORDS. -/
theorem decodeReadInputRegisters : Obligations.DecodeReadInputRegisters := fun _ _ _ =>
  answers_counted lookup_0x04 rfl rfl

/-- Settles O29: both single writes have the layout RSP_ECHO, without QTY. -/
theorem decodeSingleWrites : Obligations.DecodeSingleWrites := fun _ _ _ =>
  ⟨answers_uncounted lookup_0x05 rfl rfl, answers_uncounted lookup_0x06 rfl rfl⟩

/-- Settles O30: READ_EXCEPTION_STATUS has the layout RSP_STATUS, without QTY. -/
theorem decodeReadExceptionStatus : Obligations.DecodeReadExceptionStatus := fun _ _ _ =>
  answers_uncounted lookup_0x07 rfl rfl

/-- Settles O31: DIAGNOSTIC has the layout RSP_DIAG, without QTY. -/
theorem decodeDiagnostic : Obligations.DecodeDiagnostic := fun _ _ _ =>
  answers_uncounted lookup_0x08 rfl rfl

/-- Settles O32: both multiple writes have the layout RSP_ECHO, without QTY. -/
theorem decodeMultipleWrites : Obligations.DecodeMultipleWrites := fun _ _ _ =>
  ⟨answers_uncounted lookup_0x0F rfl rfl, answers_uncounted lookup_0x10 rfl rfl⟩

/-- Settles O33: READ_WRITE_MULTIPLE_REGISTERS reads QTY and has the layout RSP_WORDS. -/
theorem decodeReadWriteMultipleRegisters : Obligations.DecodeReadWriteMultipleRegisters := fun _ _ _ =>
  answers_counted lookup_0x17 rfl rfl

/-- Settles O37: the EXCEPTION row is the DECODE of its PDU, whose checks are `decodeOutcome`'s. -/
theorem exceptionRowChecksInOrder : Obligations.ExceptionRowChecksInOrder := by
  intro fc qty low rest s
  by_cases hfc : fc ∈ supported
  · obtain ⟨d, hd⟩ := exists_lookup_of_mem_supported hfc
    have hrow : Answers (.exceptionRsp fc qty low rest) s (decodeOutcome d qty (exceptionByte low :: rest)) :=
      answers_decode hd
    have hbit : (exceptionByte low).getLsbD 7 = true := isException_exceptionByte low rest
    simp only [decodeOutcome, readFlag_iff_countedByQuantity hd] at hrow
    rw [if_neg (not_not.mpr hfc)]
    cases rest with
    | nil => rwa [checkedPdu_of_short_exception _ hbit] at hrow
    | cons code rest => rwa [checkedPdu_of_exception _ hbit] at hrow
  · rw [if_pos hfc]
    exact exec_decode_unlisted (lookup_eq_none_of_not_mem_supported hfc) qty _ s

/-! ### Packed coils (R216 f) -/

/-- Unpacking packed coils gives the coils. -/
theorem unpackBits_packBits {bits : List Int} (hbits : ∀ b ∈ bits, b = 0 ∨ b = 1) :
    unpackBits bits.length (packBits bits) = bits.map Int.toNat := by
  have hall : bits.all isBit = true := List.all_eq_true.mpr fun b hb => decide_eq_true (hbits b hb)
  calc unpackBits bits.length (packBits bits)
    _ = (coilsOf bits.length (packBits bits)).map Int.toNat := by simp [coilsOf, unpackBits]
    _ = bits.map Int.toNat := by rw [coilsOf_packBits hall]

/-- The outcome of RSP_BITS on the packed coils and their byte count, where one byte holds it. -/
theorem bitsOutcome_packBits {bits : List Int} (hlen : bits.length ≤ 2040) :
    bitsOutcome bits.length (BitVec.ofNat 8 ((bits.length + 7) / 8) :: packBits bits) =
      { valuesOut := some (unpackBits bits.length (packBits bits)) } := by
  have hcount : (BitVec.ofNat 8 ((bits.length + 7) / 8)).toNat = (packBits bits).length := by
    rw [toNat_ofNat_byte (by omega), packBits_length, ceil8]
  have hsize : (packBits bits).length = (bits.length + 7) / 8 := packBits_length bits
  rw [bitsOutcome, countedData, if_pos hcount, if_pos hsize, unpackBits, funext (bitAt_eq _)]

/-- Settles O39: DECODE of READ_COILS is `decodeReadCoils`, and `unpackBits` undoes `packBits`. -/
theorem packedCoilsDecodeBack : Obligations.PackedCoilsDecodeBack := by
  intro bits s hlen hbits
  have hrange : ¬outsideWord (bits.length : Int) := by omega
  obtain ⟨hdecode, -⟩ := decodeReadCoils bits.length
    (0x01 :: BitVec.ofNat 8 ((bits.length + 7) / 8) :: packBits bits) s
  rwa [if_neg hrange, Int.toNat_natCast, checkedPdu, if_neg (by decide), bitsOutcome_packBits hlen,
    unpackBits_packBits hbits] at hdecode

/-! ### A decode that raises nothing -/

theorem bind_eq_ok_iff {α β : Type} {x : Except Error α} {f : α → Except Error β} {b : β} :
    (x >>= f) = .ok b ↔ ∃ a, x = .ok a ∧ f a = .ok b := by
  cases x with
  | ok a => exact ⟨fun h => ⟨a, rfl, h⟩, fun ⟨_, ha, h⟩ => by cases ha; exact h⟩
  | error e => exact ⟨nofun, nofun⟩

/-- DECODE has a result exactly when the QTY check, the exception check and the decode rule raise nothing, and it is the
rule's whole list (R200, R201). -/
theorem decodeResults_eq_ok_iff {d : Descriptor} {qty : Int} {p : Bytes} {out : Response} :
    decodeResults d qty p = .ok out ↔ checkQuantity d qty = .ok () ∧ checkException p = .ok () ∧
      ∃ vs, decodePayload d.responseLayout p qty.toNat = .ok vs ∧ { valuesOut := some vs } = out := by
  simp only [decodeResults, bind_eq_ok_iff, pure, Except.pure, Except.ok.injEq, Unique.exists_iff,
    PUnit.default_eq_unit]

/-- Settles O34: a result has all values by `decodeResults_eq_ok_iff`, and an error's response has none. -/
theorem noPartialDecode : Obligations.NoPartialDecode := by
  intro fc qty p s d hd
  rw [exec_decode_listed hd, runDecode]
  refine ⟨fun vs hqty hexc hvs => ?_, fun e he => ?_⟩
  · rw [decodeResults_eq_ok_iff.mpr ⟨hqty, hexc, vs, hvs, rfl⟩]
    exact ⟨_, rfl, rfl, rfl⟩
  · cases hresult : decodeResults d qty p with
    | ok out =>
      obtain ⟨hqty, hexc, vs, hvs, -⟩ := decodeResults_eq_ok_iff.mp hresult
      simp [hqty, hexc, hvs] at he
    | error e' => exact ⟨_, rfl, error_status_ne_ok e', rfl⟩

theorem requireLayout_eq_ok_iff {fits : Bool} {u : Unit} : requireLayout fits = .ok u ↔ fits = true := by
  cases fits <;> simp [requireLayout]

theorem eq_drop_of_readData {p data : Bytes} (h : readData p = .ok data) : data = p.drop 2 := by
  unfold readData at h
  split_ifs at h
  exact (Except.ok.inj h).symm

theorem rd16_le (x : Bytes) (i : Nat) : rd16 x i ≤ 65535 := by
  have hhi := (byteAt x i).isLt
  have hlo := (byteAt x (i + 1)).isLt
  unfold rd16
  omega

/-- Words of the data are words of the PDU, two bytes further on. -/
theorem rd16_drop (p : Bytes) (n i : Nat) : rd16 (p.drop n) i = rd16 p (n + i) := by
  simp [rd16, byteAt, List.getD_eq_getElem?_getD, Nat.add_assoc]

/-- What R216 says of the values of each response layout: how many, in which range, and for words where in the PDU. -/
def HasShape (p : Bytes) (q : Nat) (vs : List Nat) : ResponseLayout → Prop
  | .rspBits => vs.length = q ∧ ∀ v ∈ vs, v = 0 ∨ v = 1
  | .rspWords => vs.length = q ∧ (∀ v ∈ vs, v ≤ 65535) ∧ ∀ k < vs.length, vs.getD k 0 = rd16 p (2 + 2 * k)
  | .rspEcho => vs.length = 2
  | .rspStatus => vs.length = 1
  | .rspDiag => vs.length + 2 = p.length

theorem hasShape_unpackBits (p : Bytes) (q : Nat) (data : Bytes) : HasShape p q (unpackBits q data) .rspBits := by
  refine ⟨unpackBits_length q data, fun v hv => ?_⟩
  obtain ⟨k, -, rfl⟩ := List.mem_map.mp hv
  have htwo := bitAt_lt_two data k
  omega

theorem hasShape_unpackWords (p : Bytes) (q : Nat) : HasShape p q (unpackWords q (p.drop 2)) .rspWords := by
  refine ⟨unpackWords_length q _, fun v hv => ?_, fun k hk => ?_⟩
  · obtain ⟨k, -, rfl⟩ := List.mem_map.mp hv
    exact rd16_le _ _
  · rw [List.getD_eq_getElem _ _ hk, ← rd16_drop]
    simp [unpackWords]

/-- The values of a decode rule that raises nothing have their layout's shape (R216 a to e). -/
theorem hasShape_of_decodePayload {layout : ResponseLayout} {p : Bytes} {q : Nat} {vs : List Nat}
    (h : decodePayload layout p q = .ok vs) : HasShape p q vs layout := by
  cases layout with
  | rspBits =>
    obtain ⟨data, -, h⟩ := bind_eq_ok_iff.mp h
    obtain ⟨-, -, h⟩ := bind_eq_ok_iff.mp h
    cases h
    exact hasShape_unpackBits p q data
  | rspWords =>
    obtain ⟨data, hdata, h⟩ := bind_eq_ok_iff.mp h
    obtain ⟨-, -, h⟩ := bind_eq_ok_iff.mp h
    cases h
    rw [eq_drop_of_readData hdata]
    exact hasShape_unpackWords p q
  | rspEcho | rspStatus =>
    obtain ⟨-, -, h⟩ := bind_eq_ok_iff.mp h
    cases h
    rfl
  | rspDiag =>
    obtain ⟨_, hfits, h⟩ := bind_eq_ok_iff.mp h
    have hlen := of_decide_eq_true (requireLayout_eq_ok_iff.mp hfits)
    cases h
    simp only [HasShape, List.length_cons, List.length_map, List.length_drop] at hlen ⊢
    omega

/-- A command that writes no register has STATUS OK only with its result. -/
theorem eq_ok_of_finish {r : Except Error Response} {s t : State} (h : finish r s = .next t)
    (hok : t.response.status = .ok) : r = .ok t.response := by
  cases r with
  | ok out =>
    cases h
    rfl
  | error e =>
    cases h
    exact absurd hok (error_status_ne_ok e)

/-- A successful DECODE is one of a listed function, with QTY in range where the function reads it, and returns values
of its layout's shape. -/
theorem shape_of_exec_decode {fc qty : Int} {p : Bytes} {s t : State} (h : exec (.decode fc qty p) s = .next t)
    (hok : t.response.status = .ok) :
    ∃ d vs, lookup fc = some d ∧ t.response.valuesOut = some vs ∧
      ∃ q : Nat, (d.family.readFlag = true → q = qty) ∧ HasShape p q vs d.responseLayout := by
  cases hd : lookup fc with
  | none =>
    cases (exec_decode_unlisted hd qty p s).symm.trans h
    cases hok
  | some d =>
    rw [exec_decode_listed hd] at h
    obtain ⟨hqty, -, vs, hvs, hout⟩ := decodeResults_eq_ok_iff.mp (eq_ok_of_finish h hok)
    refine ⟨d, vs, rfl, by rw [← hout], qty.toNat, fun hflag => Int.toNat_of_nonneg ?_, hasShape_of_decodePayload hvs⟩
    by_contra hneg
    rw [checkQuantity_eq, if_pos ⟨hflag, .inl (Int.not_le.mp hneg)⟩] at hqty
    cases hqty

/-- Settles O38: each function's clause is the shape of its layout. -/
theorem successfulDecodeHasTheRightShape : Obligations.SuccessfulDecodeHasTheRightShape := by
  intro fc qty p s t h hok
  obtain ⟨d, vs, hd, hvs, q, hqty, hshape⟩ := shape_of_exec_decode h hok
  refine ⟨vs, hvs, ?_, ?_, ?_, ?_, ?_⟩
  · rintro (rfl | rfl) <;>
      (cases hd; obtain ⟨rfl, hbits⟩ := hshape; exact ⟨hqty rfl, hbits⟩)
  · rintro (rfl | rfl | rfl) <;>
      (cases hd; obtain ⟨rfl, hwords⟩ := hshape; exact ⟨hqty rfl, hwords⟩)
  · rintro (rfl | rfl | rfl | rfl) <;>
      (cases hd; exact hshape)
  · rintro rfl
    cases hd
    exact hshape
  · rintro rfl
    cases hd
    exact hshape

end Sys2Proof.Machine
end

section
/-! PROOFS of the framer family (43_framer.md). First a built frame and a frame's checks in the terms of the statements,
then the round trip (O45, O46), which rests on the frame read back, and last what each of the four commands answers (O41
to O44). -/

namespace Sys2Proof.Machine

open Safety

/-! ### A frame in plain bytes -/

/-- A frame as the block sends it, the CRC low byte first by the value of `config` (R81, D4). -/
theorem buildFrame_config (a : Byte) (pdu : Bytes) :
    buildFrame config.crcByteOrder a pdu =
      a :: (pdu ++ [BitVec.ofNat 8 (crc16 (a :: pdu)).toNat, BitVec.ofNat 8 ((crc16 (a :: pdu)).toNat / 256)]) :=
  congrArg (a :: pdu ++ ·) (crcTrailer_lowFirst _)

/-- A frame fails its CRC when its last two bytes are not the CRC of those before them, low byte first (R254, D4). -/
theorem crcOk_config_eq_false_iff (f : Bytes) :
    crcOk config.crcByteOrder f = false ↔
      f.drop (f.length - 2) ≠ [BitVec.ofNat 8 (crc16 (f.take (f.length - 2))).toNat,
        BitVec.ofNat 8 ((crc16 (f.take (f.length - 2))).toNat / 256)] := by
  have hlast : memRead f (f.length - 2) 2 = f.drop (f.length - 2) :=
    List.take_of_length_le (by rw [List.length_drop]; omega)
  have hbefore : memRead f 0 (f.length - 2) = f.take (f.length - 2) := rfl
  rw [crcOk, hlast, hbefore, show config.crcByteOrder = .lowFirst from rfl, crcTrailer_lowFirst, beq_eq_false_iff_ne]

/-- A frame's PDU is what is left without the address and the two trailer bytes (R81). -/
theorem framePdu_eq_dropLast (f : Bytes) : framePdu f = f.tail.dropLast.dropLast := by
  simp only [framePdu, memRead, List.dropLast_eq_take, List.take_take, List.length_take, List.length_tail,
    List.drop_one]
  congr 1
  omega

/-! ### The checks of PARSE_REQUEST (R252) -/

section RequestFrame

variable {f : Bytes}

theorem parsedRequest_tooShort (hlen : f.length < 3) : parsedRequest f = .error (.invalidRequestFrame .tooShort) :=
  if_pos hlen

theorem parsedRequest_crcMismatch (hlen : ¬f.length < 3) (hcrc : crcOk config.crcByteOrder f = false) :
    parsedRequest f = .error (.invalidRequestFrame .crcMismatch) := by
  rw [parsedRequest, if_neg hlen, if_pos hcrc]

theorem parsedRequest_ok (hlen : ¬f.length < 3) (hcrc : ¬crcOk config.crcByteOrder f = false) :
    parsedRequest f = .ok { addr := some (byteAt f 0), pdu := some (framePdu f) } := by
  rw [parsedRequest, if_neg hlen, if_neg hcrc]

end RequestFrame

/-! ### The round trip (R255) -/

/-- PARSE_REQUEST accepts a built frame, whatever address is recorded, and records the frame's own. -/
theorem exec_parseRequest_buildFrame (a : Byte) (pdu : Bytes) (s : State) :
    exec (.parseRequest (buildFrame config.crcByteOrder a pdu)) s =
      .next (complete { addr := some a, pdu := some pdu } (recordAddress a s)) := by
  have hlen : ¬(buildFrame config.crcByteOrder a pdu).length < 3 := by rw [buildFrame_length]; omega
  have hcrc : ¬crcOk config.crcByteOrder (buildFrame config.crcByteOrder a pdu) = false :=
    ne_false_of_eq_true (crcOk_buildFrame ..)
  have haddr : byteAt (buildFrame config.crcByteOrder a pdu) 0 = a := rfl
  rw [exec_parseRequest_ok (parsedRequest_ok hlen hcrc), framePdu_buildFrame, haddr]

/-- Settles O45: BUILD_REQUEST returns `buildFrame`'s frame and records its address, and both parses read that frame
back. -/
theorem builtFrameParsesBack : Obligations.BuiltFrameParsesBack := by
  intro pdu a s
  refine ⟨_, _, exec_buildRequest_ok (addr8_natCast_toNat a) s, rfl, ?_, ?_⟩
  · intro u haddr hvalid
    exact exec_parseResponse_buildFrame hvalid haddr pdu
  · intro u
    exact exec_parseRequest_buildFrame a pdu u

/-- Settles O46: builder and checker take the same order, and the PDU's place does not depend on it. -/
theorem eitherTrailerOrderIsAccepted : Obligations.EitherTrailerOrderIsAccepted :=
  fun order a pdu => ⟨crcOk_buildFrame order a pdu, framePdu_buildFrame order a pdu⟩

/-! ### What each command answers -/

/-- Settles O41: the address fits its byte or not (R250). -/
theorem buildRequestFramesAndRecords : Obligations.BuildRequestFramesAndRecords := by
  intro data slave s
  dsimp only
  split_ifs with hslave
  · rw [← buildFrame_config]
    exact exec_buildRequest_ok (addr8_ok hslave) s
  · exact exec_buildRequest_error (addr8_error hslave) s

/-- Settles O42: the model's own checks, with the CRC check and the PDU in the statement's terms (R251). -/
theorem parseResponseChecksInOrder : Obligations.ParseResponseChecksInOrder := by
  intro data s
  have haddr : byteAt data 0 = data.getD 0 0 := rfl
  dsimp only
  rw [Answers, exec, execParseResponse, parsedResponse, haddr, framePdu_eq_dropLast]
  simp only [crcOk_config_eq_false_iff]
  split_ifs
  · exact finish_error ..
  · exact finish_error ..
  · exact finish_error ..
  · exact finish_error ..
  · exact finish_ok ..

/-- Settles O43: one case for each of the two checks, and the accepted frame (R252). -/
theorem parseRequestChecksAndRecords : Obligations.ParseRequestChecksAndRecords := by
  intro data s
  dsimp only
  rw [← framePdu_eq_dropLast]
  simp only [← crcOk_config_eq_false_iff]
  split_ifs with hlen hcrc
  · exact exec_parseRequest_error (parsedRequest_tooShort hlen) s
  · exact exec_parseRequest_error (parsedRequest_crcMismatch hlen hcrc) s
  · exact exec_parseRequest_ok (parsedRequest_ok hlen hcrc) s

/-- Settles O44: an address is recorded or not (R253). -/
theorem buildResponseUsesRecordedAddress : Obligations.BuildResponseUsesRecordedAddress := by
  intro data s
  dsimp only
  rw [← buildFrame_config]
  split_ifs with hvalid
  · exact exec_buildResponse_invalid hvalid data
  · exact exec_buildResponse_valid (eq_true_of_ne_false hvalid) data

end Sys2Proof.Machine
end

section
/-! PROOFS of the exceptions family (60_exceptions.md). First the numbers of R281 and R282 (O60) and the exception code
of R283 (O35), then the whole effect of an instruction, from which O51 follows, and last which instructions are refused
(O49). -/

namespace Sys2Proof.Machine

open Safety

/-! ### The numbers of STATUS and DETAIL -/

/-- The kinds in the order of R281. -/
def statusOrder : List Status :=
  [.ok, .unsupportedFunction, .invalidArgument, .invalidRequestFrame, .invalidResponseFrame, .slaveException]

/-- The causes in the order of R282. -/
def detailOrder : List Detail :=
  [.none, .addrRange, .fieldRange, .valueRange, .byteCountRange, .dataByteRange, .noRequest, .tooShort, .addrMismatch,
    .crcMismatch, .byteCountMismatch, .layoutMismatch, .emptyPdu]

/-- A kind stands at its number. -/
theorem statusOrder_getElem?_code (a : Status) : statusOrder[a.code]? = some a := by cases a <;> rfl

/-- A cause stands at its number. -/
theorem detailOrder_getElem?_code (a : Detail) : detailOrder[a.code]? = some a := by cases a <;> rfl

theorem statusCode_injective : Function.Injective Status.code := fun a b h => by
  have hget : statusOrder[a.code]? = statusOrder[b.code]? := congrArg (statusOrder[·]?) h
  rwa [statusOrder_getElem?_code, statusOrder_getElem?_code, Option.some_inj] at hget

theorem detailCode_injective : Function.Injective Detail.code := fun a b h => by
  have hget : detailOrder[a.code]? = detailOrder[b.code]? := congrArg (detailOrder[·]?) h
  rwa [detailOrder_getElem?_code, detailOrder_getElem?_code, Option.some_inj] at hget

/-- Settles O60: a number is its kind's or cause's place in the order, so it tells which one it is. -/
theorem statusAndDetailNumbers : Obligations.StatusAndDetailNumbers :=
  ⟨rfl, rfl, fun _ _ h => statusCode_injective h, fun _ _ h => detailCode_injective h⟩

/-! ### The exception code -/

/-- The first byte of an exception response, the function code OR 0x80 (R86), has bit 7 set. -/
theorem or_0x80_bit7 (b : Byte) : (b ||| 0x80#8).getLsbD 7 = true := by
  rw [BitVec.getLsbD_or]
  exact Bool.or_true _

/-- Settles O35: DECODE raises SlaveException with the code, and `raiseError` puts the code in EXC_CODE alone. -/
theorem exceptionCodePassesThrough : Obligations.ExceptionCodePassesThrough := by
  intro fc qty s hlisted hlow hhigh
  have hfc : fc ∈ supported := (lookup_isSome_iff fc).mp hlisted
  exact ⟨raiseError (.slaveException 0) s, rfl, fun code =>
    exec_decode_slaveException hfc (fun _ => ⟨hlow, hhigh⟩) (or_0x80_bit7 _) code [] s⟩

/-! ### The whole effect of an instruction -/

/-- Two states hold the same address register (R33). -/
abbrev SameRegister (s u : State) : Prop := s.lastAddr = u.lastAddr ∧ s.lastValid = u.lastValid

/-- An instruction does one thing in all states with the register of `s`: it completes with one outcome, or it completes
with one outcome and records one address, or it is refused (R38). -/
theorem exec_uniform (i : Instr) (s : State) :
    (∃ out, ∀ u, SameRegister s u → exec i u = .next (complete out u)) ∨
    (∃ a out, ∀ u, exec i u = .next (complete out (recordAddress a u))) ∨
    (∃ r, ∀ u, exec i u = .refused r) := by
  cases runsAs i with
  | encode d o hi =>
    rcases runEncode_cases d o with ⟨-, out, hout⟩ | ⟨-, hrefused⟩
    · exact .inl ⟨out, fun u _ => (hi u).trans (hout u)⟩
    · exact .inr (.inr ⟨_, fun u => (hi u).trans (hrefused u)⟩)
  | decode d qty p hi =>
    obtain ⟨out, hout⟩ := runDecode_completes d qty p
    exact .inl ⟨out, fun u _ => (hi u).trans (hout u)⟩
  | unlisted hi => exact .inl ⟨_, fun u _ => hi u⟩
  | crc16 data => exact .inl ⟨_, fun _ _ => rfl⟩
  | buildRequest data slave =>
    cases ha : addr8 slave with
    | ok a => exact .inr (.inl ⟨a, _, exec_buildRequest_ok ha⟩)
    | error e => exact .inl ⟨_, fun u _ => exec_buildRequest_error ha u⟩
  | parseRequest data =>
    cases hp : parsedRequest data with
    | ok r => exact .inr (.inl ⟨_, r, exec_parseRequest_ok hp⟩)
    | error e => exact .inl ⟨_, fun u _ => exec_parseRequest_error hp u⟩
  | parseResponse data =>
    obtain ⟨out, hout⟩ := finish_completes (parsedResponse s data)
    refine .inl ⟨out, fun u ⟨ha, hv⟩ => ?_⟩
    rw [exec, execParseResponse, ← parsedResponse_congr ha hv, hout]
  | buildResponse data =>
    cases hs : s.lastValid with
    | false => exact .inl ⟨_, fun u ⟨_, hv⟩ => exec_buildResponse_invalid (hv.symm.trans hs) data⟩
    | true =>
      refine .inl ⟨{ frame := some (buildFrame config.crcByteOrder s.lastAddr data) }, fun u ⟨ha, hv⟩ => ?_⟩
      rw [exec_buildResponse_valid (hv.symm.trans hs), ha]
  | reservedOp7 => exact .inr (.inr ⟨_, fun _ => rfl⟩)

/-- A command that completes leaves the same outcome and the same register from any state with the same register. -/
theorem exec_next_of_sameRegister {s t : State} (hreg : SameRegister s t) {j : Instr} {u : State}
    (h : exec j t = .next u) : ∃ v, exec j s = .next v ∧ v.response = u.response ∧ SameRegister v u := by
  rcases exec_uniform j s with ⟨out, hj⟩ | ⟨a, out, hj⟩ | ⟨r, hj⟩
  · cases (hj t hreg).symm.trans h
    exact ⟨_, hj s ⟨rfl, rfl⟩, rfl, hreg⟩
  · cases (hj t).symm.trans h
    exact ⟨_, hj s, rfl, rfl, rfl⟩
  · cases (hj t).symm.trans h

/-- A command that completes with an error writes no register (R280, D10). -/
theorem exec_error_keeps_register {i : Instr} {s t : State} (h : exec i s = .next t) (hstatus : t.response.status ≠ .ok) :
    t.lastAddr = s.lastAddr ∧ t.lastValid = s.lastValid := by
  obtain ⟨-, -, hkept | ⟨-, hok, -⟩⟩ := onlyRequestsWriteTheRegister i s t h
  · exact hkept
  · exact absurd hok hstatus

/-- Settles O51: an error leaves the register, and the register is all that the next command reads. -/
theorem failedCommandLeavesNoTrace : Obligations.FailedCommandLeavesNoTrace := by
  intro i s t h hstatus
  obtain ⟨haddr, hvalid⟩ := exec_error_keeps_register h hstatus
  obtain ⟨-, -, hresult⟩ := exec_response_legal h
  exact ⟨haddr, hvalid, hresult hstatus, fun j u hj => exec_next_of_sameRegister ⟨haddr.symm, hvalid.symm⟩ hj⟩

/-! ### The refused instructions -/

theorem exec_ne_fault (i : Instr) (s : State) (f : Fault) : exec i s ≠ .fault f := by
  rcases exec_cases i s with ⟨out, hi⟩ | ⟨a, out, -, hi, -⟩ | ⟨r, hi⟩ <;> simp [hi]

/-- VALUES breaks the precondition of WRITE_MULTIPLE_COILS (R153). -/
abbrev BreaksCoils (o : EncodeOperands) : Prop := (o.values.length : Int) ≠ o.qty ∨ ∃ v ∈ o.values, v ≠ 0 ∧ v ≠ 1

/-- VALUES breaks the precondition of WRITE_MULTIPLE_REGISTERS (R153). -/
abbrev BreaksRegisters (o : EncodeOperands) : Prop := (o.values.length : Int) ≠ o.qty

theorem preconditionHolds_writeMultipleCoils_eq_false_iff (o : EncodeOperands) :
    preconditionHolds writeMultipleCoils o = false ↔ BreaksCoils o := by
  rw [preconditionHolds_writeMultipleCoils, decide_eq_false_iff_not, not_and_or]
  simp only [BreaksCoils, not_forall, not_or, exists_prop]

theorem preconditionHolds_writeMultipleRegisters_eq_false_iff (o : EncodeOperands) :
    preconditionHolds writeMultipleRegisters o = false ↔ BreaksRegisters o := by
  rw [preconditionHolds_writeMultipleRegisters, decide_eq_false_iff_not]

/-- ENCODE by a descriptor is refused for its precondition alone. -/
theorem runEncode_eq_refused_iff {d : Descriptor} {o : EncodeOperands} {s : State} {r : Refusal} :
    runEncode d o s = .refused r ↔ r = .precondition ∧ preconditionHolds d o = false := by
  rcases runEncode_cases d o with ⟨hpre, out, hout⟩ | ⟨hpre, hrefused⟩
  · simp [hout, hpre]
  · simp [hrefused, hpre, eq_comm]

theorem finish_ne_refused (x : Except Error Response) (s : State) (r : Refusal) : finish x s ≠ .refused r := by
  obtain ⟨out, hout⟩ := finish_completes x
  simp [hout]

theorem exec_decode_ne_refused (fc qty : Int) (p : Bytes) (s : State) (r : Refusal) :
    exec (.decode fc qty p) s ≠ .refused r := by
  cases h : lookup fc with
  | none => simp [exec_decode_unlisted h]
  | some d =>
    rw [exec_decode_listed h]
    exact finish_ne_refused _ s r

theorem exec_buildRequest_ne_refused (data : Bytes) (slave : Int) (s : State) (r : Refusal) :
    exec (.buildRequest data slave) s ≠ .refused r := by
  cases h : addr8 slave with
  | ok a => simp [exec_buildRequest_ok h]
  | error e => simp [exec_buildRequest_error h]

theorem exec_parseRequest_ne_refused (data : Bytes) (s : State) (r : Refusal) :
    exec (.parseRequest data) s ≠ .refused r := by
  cases h : parsedRequest data with
  | ok out => simp [exec_parseRequest_ok h]
  | error e => simp [exec_parseRequest_error h]

theorem exec_buildResponse_ne_refused (data : Bytes) (s : State) (r : Refusal) :
    exec (.buildResponse data) s ≠ .refused r := by
  cases h : s.lastValid with
  | false => simp [exec_buildResponse_invalid h]
  | true => simp [exec_buildResponse_valid h]

/-- `i` is a multiple write, as the general ENCODE or as its row, whose operands `o` break the caller's precondition. -/
abbrev BreaksPrecondition (i : Instr) (o : EncodeOperands) : Prop :=
  ((i = .encode 0x0F o ∨ i = .writeMultipleCoilsReq o.start o.qty o.values o.lenOvr) ∧ BreaksCoils o) ∨
  ((i = .encode 0x10 o ∨ i = .writeMultipleRegistersReq o.start o.qty o.values o.lenOvr) ∧ BreaksRegisters o)

theorem exec_refused_of_breaksPrecondition {i : Instr} {o : EncodeOperands} (h : BreaksPrecondition i o) (s : State) :
    exec i s = .refused .precondition := by
  rcases h with ⟨hi, hbreaks⟩ | ⟨hi, hbreaks⟩
  · have hpre := (preconditionHolds_writeMultipleCoils_eq_false_iff o).mpr hbreaks
    obtain ⟨hencode, hrow⟩ := refused_encode_and_row (s := s) lookup_0x0F
      (i := .writeMultipleCoilsReq o.start o.qty o.values o.lenOvr) rfl hpre
    rcases hi with rfl | rfl
    · exact hencode
    · exact hrow
  · have hpre := (preconditionHolds_writeMultipleRegisters_eq_false_iff o).mpr hbreaks
    obtain ⟨hencode, hrow⟩ := refused_encode_and_row (s := s) lookup_0x10
      (i := .writeMultipleRegistersReq o.start o.qty o.values o.lenOvr) rfl hpre
    rcases hi with rfl | rfl
    · exact hencode
    · exact hrow

/-- The other nine functions have no precondition to break (R153). -/
theorem preconditionHolds_of_not_multipleWrite {fc : Int} {d : Descriptor} (hd : lookup fc = some d) (h0F : fc ≠ 0x0F)
    (h10 : fc ≠ 0x10) (o : EncodeOperands) : preconditionHolds d o = true := by
  rcases lookup_cases fc with ⟨hnone, -⟩ | hfc
  · simp [hnone] at hd
  · simp only [h0F, h10, false_or] at hfc
    rcases hfc with rfl | rfl | rfl | rfl | rfl | rfl | rfl | rfl | rfl <;> (cases hd; rfl)

theorem breaksPrecondition_of_exec_encode_refused {fc : Int} {o : EncodeOperands} {s : State} {r : Refusal}
    (h : exec (.encode fc o) s = .refused r) : r = .precondition ∧ BreaksPrecondition (.encode fc o) o := by
  cases hd : lookup fc with
  | none => cases (exec_encode_unlisted hd o s).symm.trans h
  | some d =>
    rw [exec_encode_listed hd] at h
    obtain ⟨hr, hpre⟩ := runEncode_eq_refused_iff.mp h
    refine ⟨hr, ?_⟩
    by_cases h0F : fc = 0x0F
    · subst h0F
      cases hd.symm.trans lookup_0x0F
      exact .inl ⟨.inl rfl, (preconditionHolds_writeMultipleCoils_eq_false_iff o).mp hpre⟩
    · by_cases h10 : fc = 0x10
      · subst h10
        cases hd.symm.trans lookup_0x10
        exact .inr ⟨.inl rfl, (preconditionHolds_writeMultipleRegisters_eq_false_iff o).mp hpre⟩
      · exact absurd (preconditionHolds_of_not_multipleWrite hd h0F h10 o) (ne_true_of_eq_false hpre)

/-- What a refusal can be, by the instruction: of the rows only the two multiple writes have a precondition, and no
response or framer command is refused. -/
theorem exec_refused_cases {i : Instr} {s : State} {r : Refusal} (h : exec i s = .refused r) :
    (r = .reservedOp ∧ i = .reservedOp7) ∨ (r = .precondition ∧ ∃ o, BreaksPrecondition i o) := by
  cases i with
  | reservedOp7 =>
    cases h
    exact .inl ⟨rfl, rfl⟩
  | encode fc o =>
    obtain ⟨hr, hbreaks⟩ := breaksPrecondition_of_exec_encode_refused h
    exact .inr ⟨hr, o, hbreaks⟩
  | writeMultipleCoilsReq start qty values lenOvr =>
    obtain ⟨hr, hpre⟩ := runEncode_eq_refused_iff.mp h
    exact .inr ⟨hr, _, .inl ⟨.inr rfl, (preconditionHolds_writeMultipleCoils_eq_false_iff _).mp hpre⟩⟩
  | writeMultipleRegistersReq start qty values lenOvr =>
    obtain ⟨hr, hpre⟩ := runEncode_eq_refused_iff.mp h
    exact .inr ⟨hr, _, .inr ⟨.inr rfl, (preconditionHolds_writeMultipleRegisters_eq_false_iff _).mp hpre⟩⟩
  | readCoilsReq | readDiscreteInputsReq | readHoldingRegistersReq | readInputRegistersReq | writeSingleCoilReq
  | writeSingleRegisterReq | readExceptionStatusReq | diagnosticReq | readWriteMultipleRegistersReq =>
    simp only [exec, execReadCoilsReq, execReadDiscreteInputsReq, execReadHoldingRegistersReq,
      execReadInputRegistersReq, execWriteSingleCoilReq, execWriteSingleRegisterReq, execReadExceptionStatusReq,
      execDiagnosticReq, execReadWriteMultipleRegistersReq] at h
    obtain ⟨-, hpre⟩ := runEncode_eq_refused_iff.mp h
    cases hpre
  | readCoilsRsp | readDiscreteInputsRsp | readHoldingRegistersRsp | readInputRegistersRsp | writeSingleCoilRsp
  | writeSingleRegisterRsp | readExceptionStatusRsp | diagnosticRsp | writeMultipleCoilsRsp | writeMultipleRegistersRsp
  | readWriteMultipleRegistersRsp | parseResponse => exact absurd h (finish_ne_refused _ s r)
  | crc16 data => cases h
  | exceptionRsp fc qty low rest => exact absurd h (exec_decode_ne_refused fc qty _ s r)
  | decode fc qty data => exact absurd h (exec_decode_ne_refused fc qty data s r)
  | buildRequest data slave => exact absurd h (exec_buildRequest_ne_refused data slave s r)
  | parseRequest data => exact absurd h (exec_parseRequest_ne_refused data s r)
  | buildResponse data => exact absurd h (exec_buildResponse_ne_refused data s r)

/-- Settles O49: `exec_refused_cases` one way, and the reserved command and the broken preconditions are refused. -/
theorem refusedInstructionsAreExactly : Obligations.RefusedInstructionsAreExactly := by
  refine fun i s => ⟨exec_ne_fault i s, fun r => ⟨exec_refused_cases, ?_⟩⟩
  rintro (⟨rfl, rfl⟩ | ⟨rfl, o, hbreaks⟩)
  · rfl
  · exact exec_refused_of_breaksPrecondition hbreaks s

end Sys2Proof.Machine
end

section
/-! PROOFS of the reset and hazards family (70_reset_and_hazards.md). First the register after a request that succeeds and
one that fails, from which O47 follows, then the invariant at reset (O54), and last the observation of a run (O57). -/

namespace Sys2Proof.Machine

open Safety

/-! ### The register after a request -/

theorem byteAt_zero_of_head? {f : Bytes} {a : Byte} (h : f.head? = some a) : byteAt f 0 = a := by
  cases f with
  | nil => cases h
  | cons b rest => exact Option.some.inj h

/-- A request that succeeds leaves its own address recorded, whatever was recorded before (R33, R313, D6). -/
theorem requestSucceeds_register {i : Instr} {a : Byte} {s t : State} (h : RequestSucceeds i a s t) :
    t.lastAddr = a ∧ t.lastValid = true := by
  obtain ⟨hexec, hok, ⟨pdu, rfl⟩ | ⟨frame, rfl, hhead⟩⟩ := h
  · cases (exec_buildRequest_ok (addr8_natCast_toNat a) s).symm.trans hexec
    exact ⟨rfl, rfl⟩
  · cases hp : parsedRequest frame with
    | ok r =>
      cases (exec_parseRequest_ok hp s).symm.trans hexec
      exact ⟨byteAt_zero_of_head? hhead, rfl⟩
    | error e =>
      cases (exec_parseRequest_error hp s).symm.trans hexec
      exact absurd hok (error_status_ne_ok e)

theorem requestFails_register {i : Instr} {s t : State} (h : RequestFails i s t) :
    t.lastAddr = s.lastAddr ∧ t.lastValid = s.lastValid := by
  obtain ⟨hexec, hstatus, -⟩ := h
  exact exec_error_keeps_register hexec hstatus

/-- Settles O47: the second request's address stands in the register, also after a request that failed, and PARSE_RESPONSE
compares with nothing else. Of the first request only that its address is another one is used. -/
theorem responseIsCheckedAgainstNewestRequest : Obligations.ResponseIsCheckedAgainstNewestRequest := by
  intro a b i j s t u hab _ hsecond v hv pdu
  obtain ⟨haddrSet, hvalidSet⟩ := requestSucceeds_register hsecond
  have hregister : v.lastAddr = b ∧ v.lastValid = true := by
    obtain rfl | ⟨k, hfails⟩ := hv
    · exact ⟨haddrSet, hvalidSet⟩
    · obtain ⟨haddrKept, hvalidKept⟩ := requestFails_register hfails
      exact ⟨haddrKept.trans haddrSet, hvalidKept.trans hvalidSet⟩
  obtain ⟨rfl, hvalid⟩ := hregister
  exact ⟨exec_parseResponse_addrMismatch hvalid hab .lowFirst pdu, exec_parseResponse_buildFrame hvalid rfl pdu⟩

/-! ### Reset -/

/-- Settles O54: the reset outcome is the legal one with STATUS OK, and no address is recorded. -/
theorem resetMeetsTheInvariant : Obligations.ResetMeetsTheInvariant :=
  ⟨legalResponse_of_ok rfl rfl rfl, fun hvalid => nomatch hvalid⟩

/-! ### The observation of a run -/

section Observe

variable {c : Command} {cs : List Command} {s : State}

/-- An observed run has one outcome for each command (R321, D38). -/
theorem observe_outcomes_length {o : Observation} (h : observe cs s = .next o) : o.outcomes.length = cs.length := by
  induction cs generalizing s o with
  | nil =>
    cases h
    rfl
  | cons c cs ih =>
    obtain ⟨t, rest, -, hrest, rfl⟩ := observe_cons_next h
    exact congrArg (· + 1) (ih hrest)

/-- A first command that completes puts its outcome before the observation of the rest (R321). -/
theorem observe_cons_of_next {t : State} {o : Observation} (hissue : issue c s = .next t) (hrest : observe cs t = .next o) :
    observe (c :: cs) s = .next { o with outcomes := t.response :: o.outcomes } := by
  simp only [observe, hissue, hrest]

/-- A run is refused by its first command, or by the rest once the first has completed (R286, R321). -/
theorem observe_cons_refused_iff {r : Refusal} :
    observe (c :: cs) s = .refused r ↔
      issue c s = .refused r ∨ ∃ t, issue c s = .next t ∧ observe cs t = .refused r := by
  cases hissue : issue c s with
  | fault f => simp [observe, hissue]
  | refused q => simp [observe, hissue]
  | next t => cases hrest : observe cs t <;> simp [observe, hissue, hrest]

end Observe

/-- Settles O57: by what `observe` says of the empty run and of a run's first command, the length by induction. -/
theorem observationHasOneOutcomePerCommand : Obligations.ObservationHasOneOutcomePerCommand :=
  ⟨fun _ => rfl, fun _ _ _ =>
    ⟨fun _ h => observe_outcomes_length h, fun _ => observe_cons_refused_iff, fun _ _ => observe_cons_of_next⟩⟩

end Sys2Proof.Machine
end
